-- ==== Sys2Proof/Word.lean ====
section
/-!
DEFINITION. The bit-vector types of the block (00_scope.md R11, R12): bytes, identifiers, payload words, block data,
block indices and the signed 33-bit working registers.
-/
namespace Sys2Proof

/-- A byte. -/
abbrev Byte := BitVec 8

/-- A 29-bit CAN identifier (R7 ID_WIDTH, R90). -/
abbrev Ident := BitVec 29

/-- The payload word P of 8 payload bytes: `payload[b] = P[8b+7:8b]` (R11). -/
abbrev Payload := BitVec 64

/-- The 56-bit data field D of one 7-byte block: byte b is `D[8b+7:8b]` (R64). -/
abbrev Block := BitVec 56

/-- A block index as a DATA frame carries it, 26 bits (R97). -/
abbrev Index := BitVec 26

/-- A signed 33-bit working register: CURSOR, LASTREP, WBASE (R29 to R31). -/
abbrev Signed33 := BitVec 33

/-- The 93-bit frame word `F = id ∥ P` (R90). -/
abbrev FrameWord := BitVec 93

end Sys2Proof
end

