-- ==== Sys2Proof/Config.lean ====
section
/-!
DEFINITION. What an implementation fixes and the spec leaves open: durations, the bus name, channel handles, the shape of a
wire layout, and the values nothing in the spec gives (uninterpreted constants).
-/
namespace Sys2Proof

/-- A non-negative duration, as the fraction `num / den` of a second. The block passes durations to `Delay` and `Port.recv`
and never compares, adds or counts them (60_exceptions.md R270, 70_reset_and_hazards.md R310; log 15). -/
structure Duration where
  num : Nat
  den : Nat
  deriving DecidableEq, Repr, Inhabited

/-- The channel name, an opaque token the block only passes on (10_state.md R27). -/
structure BusName where
  token : Nat
  deriving DecidableEq, Repr, Inhabited

/-- A channel handle as `Port.open` returns it: opaque, meaningful only to the channel ports (10_state.md R39). -/
structure Handle where
  token : Nat
  deriving DecidableEq, Repr, Inhabited

/-- The positions of the fields in the payload word, as bit offsets (30_encoding.md R93 to R95, R98). One record, so that
another wire layout changes data and no rule (93_implementation_defined.md U21; log 28). -/
structure Layout where
  /-- DATA: the check byte. -/
  dataCheck : Nat
  /-- DATA: the 56-bit data field. -/
  dataField : Nat
  /-- INFO: the messageType byte. -/
  infoType : Nat
  /-- INFO: the u32 (imageLength or digestChunk). -/
  infoValue : Nat
  /-- INFO.DIG: the chunkIndex byte. -/
  infoChunk : Nat
  /-- PROGRESS: receivedDigest. -/
  progDigest : Nat
  /-- PROGRESS: receivedLength. -/
  progLength : Nat
  /-- PROGRESS: written. -/
  progWritten : Nat
  /-- PROGRESS: the u32 blockIndex. -/
  progIndex : Nat
  deriving DecidableEq, Repr

/-- The parameter T_HS_RX, reset value of CFG_T_HS_RX: the source says only "a short timeout" (00_scope.md R10,
93_implementation_defined.md U3; log 14). No body: nothing can be proved of its value. -/
opaque Config.tHsRx : Duration

/-- The parameter BUS_NAME, reset value of CFG_BUS (00_scope.md R10, 93_implementation_defined.md U5; log 14). -/
opaque Config.busName : BusName

/-- What image byte `a` holds after the `epoch`-th reset when nothing has written it since: any value
(10_state.md R34, 93_implementation_defined.md U2; log 13). -/
opaque Config.imageAtReset (epoch a : Nat) : Byte

end Sys2Proof
end

