-- ==== Sys2Proof/Syntax.lean ====
section
/-!
DEFINITION. The block's operations as syntax: frames, decoded messages, error causes, and Instr, one constructor per row of
spec/opcode_table.json.
-/
namespace Sys2Proof

/-- A FUTP frame: a 29-bit identifier and an 8-byte payload (30_encoding.md R90). -/
structure Frame where
  id : Ident
  payload : Payload
  deriving DecidableEq, Repr

/-- A frame as `Port.recv` returns it: any identifier, a length 0 .. 8, and payload bytes of which those at positions `len`
and up are never read (41_link.md R150, 93_implementation_defined.md U7, U8). -/
structure RxFrame where
  id : Ident
  payload : Payload
  len : Fin 9
  deriving DecidableEq, Repr

/-- The answer of DEMUX (40_codec.md R128). -/
inductive FrameKind where
  | progress | info | data | other
  deriving DecidableEq, Repr

/-- The causes of a DecodeError (60_exceptions.md R251). `checkMismatch` is reserved and never raised (R253). -/
inductive DecodeCause where
  | badLength | badType | badChunkIndex | checkMismatch
  deriving DecidableEq, Repr

/-- The causes of a ConfigurationError, in the order CONFIG_CHECK tests them (45_control.md R232). -/
inductive ConfigCause where
  | missingBaseId | missingBitrate | invalidBaseId | invalidBitrate | invalidWindow | invalidGranularity | imageTooLarge
  deriving DecidableEq, Repr

/-- The three classes of error with their causes (60_exceptions.md R250, R251). -/
inductive ErrorCause where
  | linkOpenFailed
  | linkSendFailed
  | linkRecvFailed
  | decode (c : DecodeCause)
  | config (c : ConfigCause)
  deriving DecidableEq, Repr

/-- The result of DECODE, a tagged variant (40_codec.md R129). -/
inductive Message where
  | data (index : Index) (block : Block)
  | infoLen (len : BitVec 32)
  | infoDig (chunkIndex : Byte) (chunk : BitVec 32)
  | progress (rd rl wr : Bool) (idx : BitVec 32)
  | notFutp
  | decodeError (c : DecodeCause)
  deriving DecidableEq, Repr

/-- The operations of the block, one per row of spec/opcode_table.json. -/
inductive Instr where
  /-- DATA: the wire frame of one block (R92, R93). -/
  | data (index : Index) (block : Block)
  /-- INFO.LEN: the wire frame of the image length (R94). -/
  | infoLen (len : BitVec 32)
  /-- INFO.DIG: the wire frame of one digest chunk (R95). -/
  | infoDig (chunkIndex : Byte) (chunk : BitVec 32)
  /-- PROGRESS: the receiver's wire frame (R98). -/
  | progress (rd rl wr : Bool) (idx : BitVec 32)
  /-- START: CMD write of 1 (R231). -/
  | start
  /-- ABORT: CMD write of 2 (R238). -/
  | abort
  /-- BLOCKCOUNT(L) (R121). -/
  | blockCount (len : BitVec 32)
  /-- BLK.FETCH(i) (R122). -/
  | blkFetch (index : BitVec 32)
  /-- ENC.DATA(i, bytes) (R123). -/
  | encData (index : BitVec 32) (block : Block)
  /-- ENC.INFO_LEN(L) (R124). -/
  | encInfoLen (len : BitVec 32)
  /-- ENC.INFO_DIG(k, c) (R125). -/
  | encInfoDig (chunkIndex : Byte) (chunk : BitVec 32)
  /-- ENC.PROGRESS(rd, rl, wr, idx) (R126). -/
  | encProgress (rd rl wr : Bool) (idx : BitVec 32)
  /-- DEMUX(id) (R128). -/
  | demux (id : Ident)
  /-- DECODE(id, payload, len) (R129). -/
  | decode (id : Ident) (payload : Payload) (len : Fin 9)
  /-- DEC.DATA(id, payload) (R131). -/
  | decData (id : Ident) (payload : Payload)
  /-- DEC.INFO(payload) (R132). -/
  | decInfo (payload : Payload)
  /-- DEC.PROGRESS(payload) (R133). -/
  | decProgress (payload : Payload)
  /-- LS.OPEN (R152). -/
  | lsOpen
  /-- LS.SEND (R153). -/
  | lsSend
  /-- LS.RECV (R154). -/
  | lsRecv
  /-- LS.RECOVER (R155). -/
  | lsRecover
  /-- LS.CLOSE (R156). -/
  | lsClose
  /-- RX.POLL (R157). -/
  | rxPoll
  /-- HS.DIGEST_ROUND (R171). -/
  | hsDigestRound
  /-- HS.EVAL in SENDING_DIGEST, and DIGEST_CONFIRMED (R173). -/
  | hsEvalDigest
  /-- HS.LENGTH_ROUND (R174). -/
  | hsLengthRound
  /-- HS.EVAL in SENDING_LENGTH (R175). -/
  | hsEvalLength
  /-- BTE.ENTER (R190). -/
  | bteEnter
  /-- BTE.WINDOW (R192). -/
  | bteWindow
  /-- CUR.UPDATE(cur, wr, idx) (R195). -/
  | curUpdate (cur : Signed33) (wr : Bool) (idx : BitVec 32)
  /-- BTE.EXIT (R194). -/
  | bteExit
  /-- PR.REPORT (R221). -/
  | prReport
  /-- PR.FLUSH (R222). -/
  | prFlush
  /-- CONFIG_CHECK (R232). -/
  | configCheck
  /-- ABORT_EXIT (R238). -/
  | abortExit
  deriving DecidableEq, Repr

/-- How the opcode table says an operation is selected: a 93-bit frame, a CMD value, a control state, or not at all (a
function other operations call) (30_encoding.md R110, R111). -/
inductive Format where
  | frame93 | hostCommand | control | function
  deriving DecidableEq, Repr

/-- The format of each operation's row. -/
def Instr.format : Instr → Format
  | .data _ _ | .infoLen _ | .infoDig _ _ | .progress _ _ _ _ => .frame93
  | .start | .abort => .hostCommand
  | .blockCount _ | .blkFetch _ | .encData _ _ | .encInfoLen _ | .encInfoDig _ _ | .encProgress _ _ _ _ | .demux _
  | .decode _ _ _ | .decData _ _ | .decInfo _ | .decProgress _ | .curUpdate _ _ _ | .configCheck => .function
  | .lsOpen | .lsSend | .lsRecv | .lsRecover | .lsClose | .rxPoll | .hsDigestRound | .hsEvalDigest | .hsLengthRound
  | .hsEvalLength | .bteEnter | .bteWindow | .bteExit | .prReport | .prFlush | .abortExit => .control

end Sys2Proof
end

