-- ==== Sys2Proof/WellFormed.lean ====
section
/-!
DEFINITION. The static checks on an operation's operands: the ranges the spec gives them (93_implementation_defined.md U10,
30_encoding.md R97, R101). Ranges that depend on the state (BLK.FETCH below BLOCKCOUNT) are checked where they are used.
-/
namespace Sys2Proof

/-- Is the operation's every operand in the range the spec gives it? -/
def Instr.wellFormed : Instr → Bool
  -- `chunkIndex: u8 ∈ [0,3]` (R95)
  | .infoDig k _ => k.toNat ≤ 3
  -- `0 <= k <= 3` (R125)
  | .encInfoDig k _ => k.toNat ≤ 3
  -- `0 <= i < 2^26` (R123)
  | .encData i _ => i.toNat < 2 ^ 26
  -- `0 <= i < BLOCKCOUNT <= 2^26` (R122, R232)
  | .blkFetch i => i.toNat < 2 ^ 26
  -- cur is signed 33 bits, `>= -1` (R195)
  | .curUpdate c _ _ => -1 ≤ c.toInt
  | .data _ _ | .infoLen _ | .progress _ _ _ _ | .start | .abort | .blockCount _ | .encInfoLen _ | .encProgress _ _ _ _
  | .demux _ | .decode _ _ _ | .decData _ _ | .decInfo _ | .decProgress _ | .lsOpen | .lsSend | .lsRecv | .lsRecover
  | .lsClose | .rxPoll | .hsDigestRound | .hsEvalDigest | .hsLengthRound | .hsEvalLength | .bteEnter | .bteWindow
  | .bteExit | .prReport | .prFlush | .configCheck | .abortExit => true

end Sys2Proof
end

