-- ==== Sys2Proof/Decode.lean ====
section
/-!
DEFINITION. The frame codec (40_codec.md), the host command code (30_encoding.md R110) and the control-state selection of the
internal operations (R111), as total decoders that reject by name; then the encoder of every operation that has a code.
-/
namespace Sys2Proof

/-! ### Fields of the payload word -/

/-- The layouts of 30_encoding.md R93, R94, R95 and R98. -/
def futpLayout : Layout where
  dataCheck := 0
  dataField := 8
  infoType := 0
  infoValue := 8
  infoChunk := 40
  progDigest := 0
  progLength := 1
  progWritten := 2
  progIndex := 8

/-- The payload word with `v` at bit offset `off` and 0 elsewhere (R91: unoccupied bits are padding, 0 on encode). -/
def putField {w : Nat} (off : Nat) (v : BitVec w) : Payload := v.setWidth 64 <<< off

/-- The `w` bits of the payload word from bit offset `off` up. -/
def getField (w off : Nat) (p : Payload) : BitVec w := (p >>> off).setWidth w

/-- One bit of the payload word. -/
def getFlag (off : Nat) (p : Payload) : Bool := p.getLsbD off

/-- INDEX_MASK, identifier bits 28..11 (R7). -/
def indexMask : Ident := 0x1FFFF800#29

/-- The 11-bit base range, identifier bits 10..0 (R7 BASE_WIDTH, R128). -/
def baseMask : Ident := 0x7FF#29

/-- `messageType` of INFO.LEN (R7 MT_LENGTH). -/
def typeLength : Byte := 0#8

/-- `messageType` of INFO.DIG (R7 MT_DIGEST). -/
def typeDigest : Byte := 1#8

/-- The identifier of INFO frames, `baseId + 1` (R94, R95). -/
def infoId (base : Ident) : Ident := base + 1#29

/-- The identifier of PROGRESS frames, `baseId + 2` (R98). -/
def progressId (base : Ident) : Ident := base + 2#29

/-- The identifier of a DATA frame: `baseId | ((i << 3) & 0x1FFFF800)` (R92, R96). -/
def dataId (base : Ident) (i : Index) : Ident := base ||| ((i.setWidth 29 <<< 3) &&& indexMask)

/-! ### Encoders of the frames (R123 to R126) -/

/-- ENC.DATA (R123): the check byte holds index bits 7..0. -/
def encodeData (base : Ident) (i : Index) (d : Block) : Frame where
  id := dataId base i
  payload := putField futpLayout.dataCheck (i.setWidth 8) ||| putField futpLayout.dataField d

/-- ENC.INFO_LEN (R124). -/
def encodeInfoLen (base : Ident) (len : BitVec 32) : Frame where
  id := infoId base
  payload := putField futpLayout.infoType typeLength ||| putField futpLayout.infoValue len

/-- ENC.INFO_DIG (R125). -/
def encodeInfoDig (base : Ident) (k : Byte) (chunk : BitVec 32) : Frame where
  id := infoId base
  payload := putField futpLayout.infoType typeDigest ||| putField futpLayout.infoValue chunk ||| putField futpLayout.infoChunk k

/-- ENC.PROGRESS (R126). -/
def encodeProgress (base : Ident) (rd rl wr : Bool) (idx : BitVec 32) : Frame where
  id := progressId base
  payload := putField futpLayout.progDigest (BitVec.ofBool rd) ||| putField futpLayout.progLength (BitVec.ofBool rl)
    ||| putField futpLayout.progWritten (BitVec.ofBool wr) ||| putField futpLayout.progIndex idx

/-! ### Demultiplexer and decoders (R128 to R133) -/

/-- DEMUX (R128): the first two comparisons are on all 29 bits. -/
def demuxId (base id : Ident) : FrameKind :=
  if id = progressId base then .progress
  else if id = infoId base then .info
  else if id &&& baseMask = base then .data
  else .other

/-- The block index of a DATA frame: `((id & 0x1FFFF800) >> 3) | check` (R96, R131). -/
def dataIndex (id : Ident) (check : Byte) : Index := ((id &&& indexMask) >>> 3).setWidth 26 ||| check.setWidth 26

/-- DEC.DATA (R131): every DATA frame decodes. -/
def decodeDataFields (id : Ident) (p : Payload) : Message :=
  .data (dataIndex id (getField 8 futpLayout.dataCheck p)) (getField 56 futpLayout.dataField p)

/-- DEC.INFO (R132): the type is tested before the chunk index (R266 (c)). -/
def decodeInfoFields (p : Payload) : Message :=
  let t := getField 8 futpLayout.infoType p
  let v := getField 32 futpLayout.infoValue p
  let k := getField 8 futpLayout.infoChunk p
  if t = typeLength then .infoLen v
  else if t = typeDigest then
    if 3 < k.toNat then .decodeError .badChunkIndex else .infoDig k v
  else .decodeError .badType

/-- DEC.PROGRESS (R133): every payload decodes, padding is ignored. -/
def decodeProgressFields (p : Payload) : Message :=
  .progress (getFlag futpLayout.progDigest p) (getFlag futpLayout.progLength p) (getFlag futpLayout.progWritten p)
    (getField 32 futpLayout.progIndex p)

/-- DECODE (R129): the identifier first, then the length (R130), then the fields. -/
def decodeMessage (base : Ident) (f : RxFrame) : Message :=
  match demuxId base f.id with
  | .other => .notFutp
  | .data => if f.len = 8 then decodeDataFields f.id f.payload else .decodeError .badLength
  | .info => if f.len = 8 then decodeInfoFields f.payload else .decodeError .badLength
  | .progress => if f.len = 8 then decodeProgressFields f.payload else .decodeError .badLength

/-! ### The decoder of operations -/

/-- Why a code is no operation. -/
inductive Reject where
  /-- an identifier of no FUTP class: kind OTHER, no error (R101) -/
  | notFutp
  /-- a malformed frame: DecodeError (R101) -/
  | decodeError (c : DecodeCause)
  /-- CMD values 0 and 3 are ignored (R110) -/
  | ignoredCommand
  /-- IDLE or a terminal phase: the block takes no step (R25) -/
  | atRest
  /-- PHASE codes 11 to 15 (R24) -/
  | reservedPhase
  /-- OP codes 5 to 7 (R26) -/
  | reservedOp
  /-- OPSTEP codes 5 to 7 (R26) -/
  | reservedOpstep
  /-- a combination of codes that selects nothing (R111) -/
  | noOperation
  /-- a pure function: the table gives it no bits (R111) -/
  | noBits
  deriving DecidableEq, Repr

/-- The operation a decoded message is the frame of. -/
def Instr.ofMessage : Message → Except Reject Instr
  | .data i d => .ok (.data i d)
  | .infoLen n => .ok (.infoLen n)
  | .infoDig k c => .ok (.infoDig k c)
  | .progress rd rl wr idx => .ok (.progress rd rl wr idx)
  | .notFutp => .error .notFutp
  | .decodeError c => .error (.decodeError c)

/-- The operation a received frame is (R100). -/
def decodeFrame (base : Ident) (f : RxFrame) : Except Reject Instr := Instr.ofMessage (decodeMessage base f)

/-- The operation a CMD write is (R110). -/
def decodeCommand (v : BitVec 2) : Except Reject Instr :=
  match v.toNat with
  | 1 => .ok .start
  | 2 => .ok .abort
  | _ => .error .ignoredCommand

/-- The control state an internal operation is selected by, in the codes of 10_state.md R24 and R26, with the three tests made
where several operations share a code: ABORT_REQ, completion (R191) and the flush test (R222). -/
structure ControlCode where
  phase : BitVec 4
  pstep : BitVec 3 := 0
  op : BitVec 3 := 0
  opstep : BitVec 3 := 0
  abortReq : Bool := false
  complete : Bool := false
  flushDue : Bool := false
  deriving DecidableEq, Repr

/-- Selection inside a link-supervisor operation that sends, receives or closes; `closing` says whether PSTEP is one at which
LS.CLOSE is called (41_link.md R153 to R156). -/
def decodeLinkOp (c : ControlCode) (closing : Bool) : Except Reject Instr :=
  match c.op.toNat with
  | 2 =>
    if c.pstep = 1 then
      match c.opstep.toNat with
      | 0 | 4 => .ok .lsSend
      | 1 | 2 | 3 => .ok .lsRecover
      | _ => .error .reservedOpstep
    else .error .noOperation
  | 3 =>
    if c.pstep = 3 ∨ c.pstep = 4 then
      match c.opstep.toNat with
      | 0 => .ok .lsRecv
      | 1 | 2 | 3 => .ok .lsRecover
      | 4 => .error .noOperation
      | _ => .error .reservedOpstep
    else .error .noOperation
  | 4 => if closing ∧ c.opstep = 0 then .ok .lsClose else .error .noOperation
  | 0 | 1 => .error .noOperation
  | _ => .error .reservedOp

/-- Selection in PHASE = OPENING (41_link.md R152, R155). -/
def decodeOpening (c : ControlCode) : Except Reject Instr :=
  match c.op.toNat with
  | 0 => .ok .lsOpen
  | 1 =>
    match c.opstep.toNat with
    | 0 => .ok .lsOpen
    | 1 | 2 | 3 => .ok .lsRecover
    | 4 => .error .noOperation
    | _ => .error .reservedOpstep
  | 2 | 3 | 4 => .error .noOperation
  | _ => .error .reservedOp

/-- Selection in a handshake phase whose round is `round` and whose evaluation is `eval` (42_handshake.md R176). -/
def decodeHandshake (c : ControlCode) (round eval : Instr) : Except Reject Instr :=
  if c.op = 0 then
    match c.pstep.toNat with
    | 0 => if c.abortReq then .ok .abortExit else .ok round
    | 1 | 2 => .ok round
    | 3 | 4 => .ok .rxPoll
    | 5 => .ok eval
    | _ => .error .noOperation
  else decodeLinkOp c (c.pstep = 0)

/-- Selection in PHASE = TRANSFER (43_transfer.md R191, R198): completion before the abort request. -/
def decodeTransfer (c : ControlCode) : Except Reject Instr :=
  if c.op = 0 then
    match c.pstep.toNat with
    | 0 => if c.complete then .ok .bteExit else if c.abortReq then .ok .abortExit else .ok .bteWindow
    | 1 => .ok .bteWindow
    | 3 | 4 => .ok .rxPoll
    | 6 => .ok .prReport
    | 7 => if c.flushDue then .ok .prFlush else .ok .bteExit
    | _ => .error .noOperation
  else decodeLinkOp c (c.pstep = 0 ∨ c.pstep = 7)

/-- Selection in the transient phases DIGEST_CONFIRMED and LENGTH_CONFIRMED (R24). -/
def decodeTransient (c : ControlCode) (i : Instr) : Except Reject Instr :=
  if c.op = 0 then .ok i else .error .noOperation

/-- The operation a control state selects (30_encoding.md R111; log 9). -/
def decodeControl (c : ControlCode) : Except Reject Instr :=
  match c.phase.toNat with
  | 0 | 7 | 8 | 9 | 10 => .error .atRest
  | 1 => decodeOpening c
  | 2 => decodeHandshake c .hsDigestRound .hsEvalDigest
  | 3 => decodeTransient c .hsEvalDigest
  | 4 => decodeHandshake c .hsLengthRound .hsEvalLength
  | 5 => decodeTransient c .bteEnter
  | 6 => decodeTransfer c
  | _ => .error .reservedPhase

/-- A code of an operation, as the opcode table's `encoding` column gives it: a frame, a CMD value, a control state, or the
word "function". -/
inductive Code where
  | frame (f : RxFrame)
  | command (v : BitVec 2)
  | control (c : ControlCode)
  | functionCall
  deriving DecidableEq, Repr

/-- The format of a code. -/
def Code.format : Code → Format
  | .frame _ => .frame93
  | .command _ => .hostCommand
  | .control _ => .control
  | .functionCall => .function

/-- The decoder, total on every code; `base` is CFG_BASE_ID. -/
def decode (base : Ident) : Code → Except Reject Instr
  | .frame f => decodeFrame base f
  | .command v => decodeCommand v
  | .control c => decodeControl c
  | .functionCall => .error .noBits

/-! ### Frame words (R90) -/

/-- The frame word `F = id ∥ P`. -/
def frameWord (f : Frame) : FrameWord := f.id ++ f.payload

/-- The frame a frame word is. -/
def ofFrameWord (w : FrameWord) : Frame where
  id := (w >>> 64).setWidth 29
  payload := w.setWidth 64

/-- A sent frame as a receiver gets it whole, 8 payload bytes (R68, R91). -/
def Frame.received (f : Frame) : RxFrame := { id := f.id, payload := f.payload, len := 8 }

/-- The operation an instruction word of spec/opcode_table.json is: 93 bits in 12 bytes for a frame, read with the reset value
0 of CFG_BASE_ID (log 16); 2 bits in one byte for a host command. The unused upper bits are 0. -/
def decodeTableWord (nbits w : Nat) : Option Instr :=
  if nbits = 96 ∨ nbits = 93 then
    if w < 2 ^ 93 then (decodeFrame 0#29 (ofFrameWord (BitVec.ofNat 93 w)).received).toOption else none
  else if nbits = 8 ∨ nbits = 2 then
    if w < 4 then (decodeCommand (BitVec.ofNat 2 w)).toOption else none
  else none

/-! ### The encoder -/

/-- The code of an operation; of an operation several control states select, its first. -/
def encode (base : Ident) : Instr → Code
  | .data i d => .frame (encodeData base i d).received
  | .infoLen n => .frame (encodeInfoLen base n).received
  | .infoDig k c => .frame (encodeInfoDig base k c).received
  | .progress rd rl wr idx => .frame (encodeProgress base rd rl wr idx).received
  | .start => .command 1
  | .abort => .command 2
  | .lsOpen => .control { phase := 1, op := 1 }
  | .lsSend => .control { phase := 2, pstep := 1, op := 2 }
  | .lsRecv => .control { phase := 2, pstep := 3, op := 3 }
  | .lsRecover => .control { phase := 1, op := 1, opstep := 1 }
  | .lsClose => .control { phase := 2, op := 4, abortReq := true }
  | .rxPoll => .control { phase := 2, pstep := 3 }
  | .hsDigestRound => .control { phase := 2 }
  | .hsEvalDigest => .control { phase := 2, pstep := 5 }
  | .hsLengthRound => .control { phase := 4 }
  | .hsEvalLength => .control { phase := 4, pstep := 5 }
  | .bteEnter => .control { phase := 5 }
  | .bteWindow => .control { phase := 6 }
  | .bteExit => .control { phase := 6, pstep := 7 }
  | .prReport => .control { phase := 6, pstep := 6 }
  | .prFlush => .control { phase := 6, pstep := 7, flushDue := true }
  | .abortExit => .control { phase := 2, abortReq := true }
  | .blockCount _ | .blkFetch _ | .encData _ _ | .encInfoLen _ | .encInfoDig _ _ | .encProgress _ _ _ _ | .demux _
  | .decode _ _ _ | .decData _ _ | .decInfo _ | .decProgress _ | .curUpdate _ _ _ | .configCheck => .functionCall

end Sys2Proof
end

