-- ==== Sys2Proof/Machine/State.lean ====
section
/-!
DEFINITION. The state of the block as plain data (10_state.md), the environment's turns and the record of atomic steps the
model adds, the reasons a step can stop, and the state after reset.
-/
namespace Sys2Proof.Machine

/-- PHASE (10_state.md R24); codes 11 to 15 have no constructor. -/
inductive Phase where
  | idle | opening | sendingDigest | digestConfirmed | sendingLength | lengthConfirmed | transfer
  | done | aborted | cfgError | linkFailed
  deriving DecidableEq, Repr

/-- PSTEP (R26). -/
inductive PStep where
  | boundary | send | gap | rxTimed | rxDrain | eval | report | exit
  deriving DecidableEq, Repr

/-- OP, the link-supervisor operation in progress (R26). -/
inductive Op where
  | noOp | openOp | sendOp | recvOp | closeOp
  deriving DecidableEq, Repr

/-- OPSTEP: TRY, REC_CLOSE, REC_BRINGUP, REC_OPEN, RETRY (R26). -/
inductive OpStep where
  | tryPort | recClose | recBringup | recOpen | retry
  deriving DecidableEq, Repr

/-- LINK (R39). -/
inductive Link where
  | closed | up | down
  deriving DecidableEq, Repr

/-- FRESH, the latch of the freshest ProgressMessage (R35). -/
structure Fresh where
  valid : Bool
  rd : Bool
  rl : Bool
  wr : Bool
  idx : BitVec 32
  deriving DecidableEq, Repr

/-- The configuration registers (R27), locked while a run is in progress (R28). -/
structure Cfg where
  /-- CFG_BASE_ID -/
  baseId : Ident
  /-- CFG_BITRATE -/
  bitrate : BitVec 32
  /-- CFG_PRESENT[0]: CFG_BASE_ID was written since reset -/
  presentBase : Bool
  /-- CFG_PRESENT[1]: CFG_BITRATE was written since reset -/
  presentRate : Bool
  /-- CFG_BUS -/
  bus : BusName
  /-- CFG_WINDOW -/
  window : Byte
  /-- CFG_GRAN -/
  gran : BitVec 32
  /-- CFG_T_DIGEST_GAP -/
  tDigestGap : Duration
  /-- CFG_T_LENGTH_GAP -/
  tLengthGap : Duration
  /-- CFG_T_HS_RX -/
  tHsRx : Duration
  /-- CFG_T_PACE -/
  tPace : Duration
  /-- CFG_T_DRAIN -/
  tDrain : Duration
  deriving DecidableEq, Repr

/-- EVT_DELTA, EVT_CONFIRMED, EVT_TOTAL: the last progress event (R40, 44_progress.md R220). -/
structure ProgressEvent where
  delta : BitVec 36
  confirmed : BitVec 36
  total : BitVec 32
  deriving DecidableEq, Repr

/-- DIGEST[0..3] (R33). -/
structure DigestRegs where
  c0 : BitVec 32
  c1 : BitVec 32
  c2 : BitVec 32
  c3 : BitVec 32
  deriving DecidableEq, Repr

/-- The image memory IMG (R34): the bytes the host has written, by address, in the canonical form of `Memory.wf`. -/
abbrev Memory := List Host.Cell

/-! ### What the environment does (00_scope.md R14; log 1) -/

/-- The environment's answer to `Port.recv` (41_link.md R150). -/
inductive RecvAnswer where
  | frame (f : RxFrame)
  | nothing
  | err
  deriving DecidableEq, Repr

/-- One answer of the environment to whichever request the block has outstanding: what it answers a `Port.open` (a handle, or
none for `Err`), a `Port.send` (true for `Ok`) and a `Port.recv`. `Port.bringUp`, `Port.close` and `Delay` have one answer,
`Done` (R150; log 5). -/
structure Reply where
  opened : Option Handle := none
  sent : Bool := false
  received : RecvAnswer := .nothing
  deriving DecidableEq, Repr

/-- The registers a host can read. The first two lines are those the spec numbers (R40, R27, R33); the last two have no number
and are read by name, because the host reads every register (10_state.md R22, 45_control.md R230, 60_exceptions.md R268). That
the read is by name is a DESIGN CHOICE (log 23). PHASE, LINK, DIGEST_OK, LENGTH_OK and ABORT_REQ are read in STATUS. -/
inductive HostReg where
  | cmd | status | err | cfgBaseId | cfgBitrate | cfgBus | cfgWindow | cfgGran | cfgTDigestGap | cfgTLengthGap | cfgTHsRx
  | cfgTPace | cfgTDrain | imgLen | digest (k : Fin 4) | cursor | lastrep | blockcount | evtDelta | evtConfirmed | evtTotal
  | cfgPresent | wbase | wsent | fresh | txf
  | pstep | hsK | wSlot | op | opstep | chan
  deriving DecidableEq, Repr

/-- What a host read returns: a register's bit pattern, the bus token, a duration, or the channel handle CHAN holds. -/
inductive HostValue where
  | word (v : Nat)
  | bus (b : BusName)
  | duration (d : Duration)
  | channel (c : Option Handle)
  deriving DecidableEq, Repr

/-- A host write to a configuration or input register, or to a byte of the image memory (R27, R33, R34). -/
inductive HostWrite where
  | baseId (v : Ident)
  | bitrate (v : BitVec 32)
  | bus (b : BusName)
  | window (v : Byte)
  | gran (v : BitVec 32)
  | tDigestGap (d : Duration)
  | tLengthGap (d : Duration)
  | tHsRx (d : Duration)
  | tPace (d : Duration)
  | tDrain (d : Duration)
  | imgLen (v : BitVec 32)
  | digest (k : Fin 4) (v : BitVec 32)
  | image (a : BitVec 32) (b : Byte)
  deriving DecidableEq, Repr

/-- One host access (45_control.md R230). -/
inductive HostAccess where
  /-- a write of CMD (R110) -/
  | cmd (v : BitVec 2)
  /-- a write of a configuration or input register -/
  | write (w : HostWrite)
  /-- a read of a register -/
  | read (r : HostReg)
  /-- a read by register number, 8 bits (20_memory.md R60) -/
  | readNumber (n : Byte)
  /-- a read of an image byte -/
  | readImage (a : BitVec 32)
  /-- a write to a register number that is not one of the host-writable registers -/
  | strayWrite (n : Byte)
  deriving DecidableEq, Repr

/-- One turn of the environment. -/
inductive Turn where
  /-- the host accesses the block -/
  | host (a : HostAccess)
  /-- the reset input (70_reset_and_hazards.md R290) -/
  | reset
  /-- the block is given time, and no answer: it computes up to its next atomic step or, standing at an Emit, makes it (log 1) -/
  | tick
  /-- the environment answers the outstanding request -/
  | reply (r : Reply)
  /-- the environment does anything: which turn this is, is a free value (R14, 93_implementation_defined.md U6) -/
  | any
  deriving DecidableEq, Repr, Inhabited

end Sys2Proof.Machine

namespace Sys2Proof

/-- What the environment does at its turn number `n` of those nothing else fixes: an oracle, any sequence of turns (00_scope.md
R14, 93_implementation_defined.md U6; log 1). No body: nothing can be proved of it. -/
opaque Config.freeTurn (n : Nat) : Machine.Turn

end Sys2Proof

namespace Sys2Proof.Machine

/-- How a `Port.recv` ended. -/
inductive RecvKind where
  | frame | nothing | err
  deriving DecidableEq, Repr

/-- What crossed the block's interface: an atomic step (00_scope.md R13) with its request operands and how it was answered, or
a value a host read returned, or a reset (log 6). -/
inductive Event where
  | opened (bus : BusName) (bitrate : BitVec 32) (c : Handle)
  | openFailed (bus : BusName) (bitrate : BitVec 32)
  | sent (c : Handle) (f : Frame) (ok : Bool)
  | received (c : Handle) (t : Duration) (k : RecvKind)
  | broughtUp (bus : BusName) (bitrate : BitVec 32)
  | closed (c : Handle)
  | delayed (t : Duration)
  | emitted (e : ProgressEvent)
  | hostRead (r : HostReg) (v : HostValue)
  | hostReadImage (a : BitVec 32) (b : Byte)
  | reset
  deriving DecidableEq, Repr

/-- What a pure function returned (00_scope.md R13 `return v`; log 7). -/
inductive Ret where
  | nothing
  | count (n : BitVec 33)
  | block (d : Block)
  | frame (f : Frame)
  | kind (k : FrameKind)
  | message (m : Message)
  | cursor (c : Signed33)
  | check (c : Option ConfigCause)
  deriving DecidableEq, Repr

/-! ### The state -/

/-- The state of the block, and the model's own six fields at the end. -/
structure State where
  /-- PHASE -/
  phase : Phase
  /-- PSTEP -/
  pstep : PStep
  /-- HS_K -/
  hsK : BitVec 3
  /-- W_SLOT -/
  wSlot : Byte
  /-- OP -/
  op : Op
  /-- OPSTEP -/
  opstep : OpStep
  /-- CURSOR -/
  cursor : Signed33
  /-- LASTREP -/
  lastrep : Signed33
  /-- WBASE -/
  wbase : Signed33
  /-- WSENT -/
  wsent : Bool
  /-- BLOCKCOUNT -/
  blockcount : BitVec 27
  /-- FRESH -/
  fresh : Fresh
  /-- TXF -/
  txf : Frame
  /-- DIGEST_OK -/
  digestOk : Bool
  /-- LENGTH_OK -/
  lengthOk : Bool
  /-- ABORT_REQ -/
  abortReq : Bool
  /-- LINK -/
  link : Link
  /-- CHAN -/
  chan : Option Handle
  /-- ERR -/
  err : Byte
  /-- EVT_DELTA, EVT_CONFIRMED, EVT_TOTAL -/
  evt : ProgressEvent
  /-- the configuration registers -/
  cfg : Cfg
  /-- IMG_LEN -/
  imgLen : BitVec 32
  /-- DIGEST[0..3] -/
  digest : DigestRegs
  /-- IMG -/
  img : Memory
  /-- the model's own: the environment's turns to come (log 1) -/
  script : List Turn
  /-- the model's own: the turns the environment then repeats for ever; none, and it is silent (log 1) -/
  loop : List Turn
  /-- the model's own: the number of free turns taken, the counter of the oracle (log 1) -/
  asked : Nat
  /-- the model's own: what crossed the interface, newest first (log 6) -/
  trace : List Event
  /-- the model's own: the value the last directly executed function returned (log 7) -/
  ret : Ret
  /-- the model's own: the number of resets, the counter of the free image bytes (log 13) -/
  epoch : Nat
  deriving DecidableEq, Repr

/-- The machine stops with a fault. -/
inductive Fault where
  /-- The host read image byte `a` with `a` at or past IMG_LEN: "Addresses at or above L do not exist" (10_state.md R34;
  log 21). Raised by the host access readImage. Safe: the block itself never reads there. -/
  | noSuchImageAddress (a : Nat)
  deriving DecidableEq, Repr

/-- No meaning. -/
inductive Refusal where
  /-- An instruction whose meaning is not written yet; raised by exec's refused arms only. Safe. -/
  | notModelled (mnemonic : String)
  /-- A host access to a register number the spec does not define (93_implementation_defined.md U12; log 22). Raised by the
  host accesses readNumber and strayWrite. Safe. -/
  | noSuchRegister (n : Nat)
  /-- A host write to a register whose access is host R (10_state.md R40; log 22). Raised by the host access strayWrite. Safe. -/
  | notHostWritable (n : Nat)
  /-- An encoder or block fetch called outside its operand range (93_implementation_defined.md U10; log 18). Raised by ENC.DATA,
  ENC.INFO_DIG, BLK.FETCH, HS.DIGEST_ROUND and BTE.WINDOW. Safe. -/
  | operandOutOfRange
  /-- An internal operation executed in a control state that does not select it (30_encoding.md R111; log 10). Raised by the
  internal operations. Safe. -/
  | notSelected
  /-- A running control state that selects no operation, never taken by the block (10_state.md R26; log 10). Raised by step. Safe. -/
  | noOperation
  deriving DecidableEq, Repr

/-- The machine right after reset (10_state.md R21, R42, 70_reset_and_hazards.md R290). -/
def State.reset : State where
  phase := .idle
  pstep := .boundary
  hsK := 0
  wSlot := 0
  op := .noOp
  opstep := .tryPort
  cursor := -1
  lastrep := -1
  wbase := -1
  wsent := false
  blockcount := 0
  -- the fields besides `valid`: DESIGN CHOICE, the spec gives none (log 11)
  fresh := { valid := false, rd := false, rl := false, wr := false, idx := 0 }
  -- DESIGN CHOICE, the spec gives none (log 11)
  txf := { id := 0, payload := 0 }
  digestOk := false
  lengthOk := false
  abortReq := false
  link := .closed
  chan := none
  err := 0
  evt := { delta := 0, confirmed := 0, total := 0 }
  cfg :=
    { baseId := 0
      bitrate := 0
      presentBase := false
      presentRate := false
      bus := Config.busName
      window := 2
      gran := 1024
      tDigestGap := { num := 20, den := 1000 }
      tLengthGap := { num := 10, den := 1000 }
      tHsRx := Config.tHsRx
      tPace := { num := 1, den := 3817 }
      tDrain := { num := 0, den := 1 } }
  imgLen := 0
  -- DESIGN CHOICE, the spec gives none (log 12)
  digest := { c0 := 0, c1 := 0, c2 := 0, c3 := 0 }
  img := []
  script := []
  loop := []
  asked := 0
  trace := []
  ret := .nothing
  epoch := 0

end Sys2Proof.Machine
end

