-- ==== Sys2Proof/Machine/Memory.lean ====
section
/-!
DEFINITION. The image memory IMG (10_state.md R34, 20_memory.md R60 to R62): canonical form, read and host write of one byte.
An address nothing has written holds no listed byte; what a read of it gives is the free value of log 13.
-/
namespace Sys2Proof.Machine

/-- Addresses strictly rising from `lo` up, all below 2^32. -/
def Memory.wfFrom (lo : Nat) : Memory → Bool
  | [] => true
  | (a, _) :: m => decide (lo ≤ a) && decide (a < 2 ^ 32) && Memory.wfFrom (a + 1) m

/-- The canonical form: addresses strictly rising, within the 32-bit address space. An unlisted address holds no listed byte,
so no entry can equal it. -/
def Memory.wf (m : Memory) : Bool := Memory.wfFrom 0 m

/-- The byte listed at an address. -/
def Memory.get : Memory → Nat → Option Byte
  | [], _ => none
  | (k, v) :: m, a => if k = a then some v else Memory.get m a

/-- List a byte at an address. -/
def Memory.set : Memory → Nat → Byte → Memory
  | [], a, b => [(a, b)]
  | (k, v) :: m, a, b =>
    if a < k then (a, b) :: (k, v) :: m
    else if a = k then (a, b) :: m
    else (k, v) :: Memory.set m a b

/-- IMG[a]: the byte the host wrote, or, where nothing was written since the last reset, a free value (U2; log 13). -/
def State.imgByte (s : State) (a : Nat) : Byte := (Memory.get s.img a).getD (Config.imageAtReset s.epoch a)

/-- `MemRead(addr, n)` (20_memory.md R62): n bytes in ascending address order, no side effect. -/
def State.memRead (s : State) (addr n : Nat) : List Byte := (List.range n).map fun j => s.imgByte (addr + j)

end Sys2Proof.Machine
end

