-- ==== Sys2Proof/Machine/Operands.lean ====
section
/-!
DEFINITION. The operands of the operations: control codes, block arithmetic and block fetch, window candidates, digest chunks,
receive timeouts, the cursor reducer, and error codes.
-/
namespace Sys2Proof.Machine

/-! ### Codes (10_state.md R24, R26, R39) -/

/-- The code of PHASE (R24). -/
def Phase.code : Phase → BitVec 4
  | .idle => 0
  | .opening => 1
  | .sendingDigest => 2
  | .digestConfirmed => 3
  | .sendingLength => 4
  | .lengthConfirmed => 5
  | .transfer => 6
  | .done => 7
  | .aborted => 8
  | .cfgError => 9
  | .linkFailed => 10

/-- The code of PSTEP (R26). -/
def PStep.code : PStep → BitVec 3
  | .boundary => 0
  | .send => 1
  | .gap => 2
  | .rxTimed => 3
  | .rxDrain => 4
  | .eval => 5
  | .report => 6
  | .exit => 7

/-- The code of OP (R26). -/
def Op.code : Op → BitVec 3
  | .noOp => 0
  | .openOp => 1
  | .sendOp => 2
  | .recvOp => 3
  | .closeOp => 4

/-- The code of OPSTEP (R26). -/
def OpStep.code : OpStep → BitVec 3
  | .tryPort => 0
  | .recClose => 1
  | .recBringup => 2
  | .recOpen => 3
  | .retry => 4

/-- The code of LINK (R39). -/
def Link.code : Link → BitVec 2
  | .closed => 0
  | .up => 1
  | .down => 2

/-- IDLE or a terminal phase: the block takes no step until START (R25). -/
def Phase.atRest : Phase → Bool
  | .idle | .done | .aborted | .cfgError | .linkFailed => true
  | .opening | .sendingDigest | .digestConfirmed | .sendingLength | .lengthConfirmed | .transfer => false

/-- The cause code's class and cause, `class << 4 | cause` (60_exceptions.md R251). -/
def errCode : ErrorCause → Byte
  | .linkOpenFailed => 0x11
  | .linkSendFailed => 0x12
  | .linkRecvFailed => 0x13
  | .decode .badLength => 0x21
  | .decode .badType => 0x22
  | .decode .badChunkIndex => 0x23
  | .decode .checkMismatch => 0x24
  | .config .missingBaseId => 0x31
  | .config .missingBitrate => 0x32
  | .config .invalidBaseId => 0x33
  | .config .invalidBitrate => 0x34
  | .config .invalidWindow => 0x35
  | .config .invalidGranularity => 0x36
  | .config .imageTooLarge => 0x37

/-! ### Blocks (40_codec.md R121, R122, 20_memory.md R64) -/

/-- BLOCKCOUNT(L) = ceil(L / 7), formed in 33 bits (R121, R135). -/
def blockCountOf (len : BitVec 32) : BitVec 33 := BitVec.ofNat 33 ((len.toNat + 6) / 7)

/-- Bytes as a little-endian number, the first byte least significant (R63, R64). -/
def packBytes : List Byte → Block
  | [] => 0
  | b :: bs => b.setWidth 56 ||| (packBytes bs <<< 8)

/-- BLK.FETCH(i) (R122): the `min(7, L - 7i)` image bytes of block i, the rest zero; no block where i is not below
`ceil(L / 7)` (U10). -/
def State.fetchBlock (s : State) (i : Nat) : Option Block :=
  if 7 * i < s.imgLen.toNat then
    let v := s.memRead (7 * i) (min 7 (s.imgLen.toNat - 7 * i))
    some (packBytes ((List.range 7).map fun b => v.getD b 0))
  else none

/-- The DATA frame of block i, `ENC.DATA(i, BLK.FETCH(i))`, where both are defined (R123, R192, U10). -/
def State.dataFrame (s : State) (i : Nat) : Option Frame :=
  if i < 2 ^ 26 then (s.fetchBlock i).map (encodeData s.cfg.baseId (BitVec.ofNat 26 i)) else none

/-- The candidate of the current window slot, `WBASE + W_SLOT + 1`, an exact integer (43_transfer.md R192, R199). -/
def State.candidate (s : State) : Int := s.wbase.toInt + s.wSlot.toNat + 1

/-! ### Digest chunks (20_memory.md R65) -/

/-- DIGEST[k]; there is none for k above 3. -/
def DigestRegs.chunk (d : DigestRegs) : Nat → Option (BitVec 32)
  | 0 => some d.c0
  | 1 => some d.c1
  | 2 => some d.c2
  | 3 => some d.c3
  | _ => none

/-! ### Receives and reports -/

/-- The timeout of the receive in progress: CFG_T_DRAIN in a drain, else CFG_T_PACE in the engine and CFG_T_HS_RX in the
handshake (41_link.md R157). -/
def State.recvTimeout (s : State) : Duration :=
  if s.pstep = .rxDrain then s.cfg.tDrain
  else if s.phase = .transfer then s.cfg.tPace
  else s.cfg.tHsRx

/-- What a report says of the cursor: idx if written, idx - 1 if not, in signed 33 bits (43_transfer.md R195). -/
def reportedCursor (wr : Bool) (idx : BitVec 32) : Signed33 :=
  if wr then idx.setWidth 33 else idx.setWidth 33 - 1

/-- CUR.UPDATE (R195): the signed maximum of the cursor and what the report says; no clamp (R197). -/
def cursorUpdate (cur : Signed33) (wr : Bool) (idx : BitVec 32) : Signed33 :=
  if cur.slt (reportedCursor wr idx) then reportedCursor wr idx else cur

/-- The event of PR.REPORT and PR.FLUSH: `((CURSOR - LASTREP) * 7, (CURSOR + 1) * 7, IMG_LEN)` (44_progress.md R221, R222). -/
def State.progressEvent (s : State) : ProgressEvent where
  delta := BitVec.ofInt 36 ((s.cursor.toInt - s.lastrep.toInt) * 7)
  confirmed := BitVec.ofInt 36 ((s.cursor.toInt + 1) * 7)
  total := s.imgLen

end Sys2Proof.Machine
end

