-- ==== Sys2Proof/Machine/Flags.lean ====
section
/-!
DEFINITION. The block has no arithmetic condition codes (10_state.md R37). This file holds the tests its control makes on the
state, the STATUS word its flags are read through, and the control code the selection of operations reads.
-/
namespace Sys2Proof.Machine

/-- Completion: `CURSOR = BLOCKCOUNT - 1`, signed equality (43_transfer.md R191). -/
def State.complete (s : State) : Bool := decide (s.cursor.toInt = (s.blockcount.toNat : Int) - 1)

/-- Is the candidate of the current slot sent, that is below BLOCKCOUNT (R192)? -/
def State.sendable (s : State) : Bool := decide (s.candidate < (s.blockcount.toNat : Int))

/-- `CURSOR > LASTREP` (44_progress.md R222). -/
def State.flushDue (s : State) : Bool := decide (s.lastrep.toInt < s.cursor.toInt)

/-- `CURSOR - LASTREP >= G` (44_progress.md R221). -/
def State.reportDue (s : State) : Bool := decide ((s.cfg.gran.toNat : Int) ≤ s.cursor.toInt - s.lastrep.toInt)

/-- HS.EVAL's test in SENDING_DIGEST (42_handshake.md R173). -/
def State.digestSeen (s : State) : Bool := s.fresh.valid && s.fresh.rd

/-- HS.EVAL's test in SENDING_LENGTH (R175). -/
def State.lengthSeen (s : State) : Bool := s.fresh.valid && s.fresh.rl

/-- The channel a port request is made on: CHAN when LINK = UP (41_link.md R153 to R156; log 26). -/
def State.live (s : State) : Option Handle :=
  match s.link with
  | .up => s.chan
  | .closed | .down => none

/-- A phase whose loop sends and receives: SENDING_DIGEST, SENDING_LENGTH, TRANSFER (45_control.md R239). -/
def Phase.exchanging : Phase → Bool
  | .sendingDigest | .sendingLength | .transfer => true
  | .idle | .opening | .digestConfirmed | .lengthConfirmed | .done | .aborted | .cfgError | .linkFailed => false

/-- A `Port.recv` is outstanding on a held channel (R154, R157). -/
def State.receiving (s : State) : Bool :=
  s.phase.exchanging && decide (s.op = .recvOp) && decide (s.opstep = .tryPort) &&
    (decide (s.pstep = .rxTimed) || decide (s.pstep = .rxDrain)) && s.live.isSome

/-! ### Atomic steps and internal computation (00_scope.md R13) -/

/-- The control state stands at a port request or a Delay: the next thing the block does is one atomic step that the environment
answers. A send, receive or close without a channel makes no request (41_link.md R153 to R156). -/
def State.atRequest (s : State) : Bool :=
  match s.op, s.opstep with
  | .noOp, _ => decide (s.pstep = .gap) && (decide (s.phase = .sendingDigest) || decide (s.phase = .sendingLength))
  | _, .recBringup | _, .recOpen | .openOp, .tryPort => true
  | _, .tryPort | _, .recClose | _, .retry => s.live.isSome

/-- The control state stands at an Emit: BTE.ENTER, a PR.REPORT or a PR.FLUSH that is due (43_transfer.md R190, R198). -/
def State.atEmit (s : State) : Bool :=
  decide (s.op = .noOp) &&
    match s.phase with
    | .lengthConfirmed => true
    | .transfer => (decide (s.pstep = .report) && s.reportDue) || (decide (s.pstep = .exit) && s.flushDue)
    | .idle | .opening | .sendingDigest | .digestConfirmed | .sendingLength | .done | .aborted | .cfgError | .linkFailed => false

/-- In a run and at no atomic step: what the block does next is internal computation. -/
def State.computing (s : State) : Bool := !s.phase.atRest && !s.atRequest && !s.atEmit

/-! ### Words -/

/-- STATUS: [3:0] PHASE, [5:4] LINK, [6] DIGEST_OK, [7] LENGTH_OK, [8] ABORT_REQ, [15:9] zero (10_state.md R40). -/
def State.statusWord (s : State) : BitVec 16 :=
  s.phase.code.setWidth 16 ||| (s.link.code.setWidth 16 <<< 4) ||| ((BitVec.ofBool s.digestOk).setWidth 16 <<< 6)
    ||| ((BitVec.ofBool s.lengthOk).setWidth 16 <<< 7) ||| ((BitVec.ofBool s.abortReq).setWidth 16 <<< 8)

/-- The control state in codes, as the selection of an internal operation reads it (30_encoding.md R111). -/
def State.controlCode (s : State) : ControlCode where
  phase := s.phase.code
  pstep := s.pstep.code
  op := s.op.code
  opstep := s.opstep.code
  abortReq := s.abortReq
  complete := s.complete
  flushDue := s.flushDue

end Sys2Proof.Machine
end

