-- ==== Sys2Proof/Machine/Ops.lean ====
section
/-!
DEFINITION. The named operations the meanings are written over: the interface record, waiting for the environment's answer, the
ports, the window, what a phase does with a received message, TAKING AN EXCEPTION (takeException, 60_exceptions.md R254 to
R258) and the RETURN from a recovery (returnFromRecovery).
-/
namespace Sys2Proof.Machine

/-! ### The interface -/

/-- Record one event at the interface (log 6). -/
def State.log (e : Event) (s : State) : State := { s with trace := e :: s.trace }

/-- Take the next turn off the script. -/
def State.pop (s : State) : State := { s with script := s.script.tail }

/-- The environment's next turn stands at the head of the script: the script used up, the turns the environment repeats are the
next, and a free turn is what the oracle says (log 1; an oracle that says nothing definite gives time). -/
def State.drawTurn (s : State) : State :=
  let s := match s.script with
    | [] => { s with script := s.loop }
    | _ :: _ => s
  match s.script with
  | .any :: rest =>
    match Config.freeTurn s.asked with
    | .any => { s with script := .tick :: rest, asked := s.asked + 1 }
    | x => { s with script := x :: rest, asked := s.asked + 1 }
  | [] | .host _ :: _ | .reset :: _ | .tick :: _ | .reply _ :: _ => s

/-- Go on with the next state, if there is one. -/
def andThen (o : Host.Outcome State Fault Refusal) (k : State → Host.Outcome State Fault Refusal) :
    Host.Outcome State Fault Refusal :=
  match o with
  | .next s => k s
  | .fault f => .fault f
  | .refused r => .refused r

/-- One port request: with an answer at the head of the script it is made and continues with `k`; without one the block waits
(60_exceptions.md R274; log 2). -/
def awaitReply (s : State) (k : Reply → State → State) : Host.Outcome State Fault Refusal :=
  match s.script with
  | .reply r :: _ => .next (k r s.pop)
  | [] | .host _ :: _ | .reset :: _ | .tick :: _ | .any :: _ => .next s

/-- `Emit(delta, confirmed, total)`: one event on the progress sink, kept in EVT_* (44_progress.md R220; log 4). -/
def State.emit (e : ProgressEvent) (s : State) : State := { s with evt := e, trace := .emitted e :: s.trace }

/-- Call a link-supervisor operation: `OP <- o; OPSTEP <- TRY` (41_link.md R152 to R156). -/
def State.call (o : Op) (s : State) : State := { s with op := o, opstep := .tryPort }

/-! ### The engine's window (43_transfer.md R192) -/

/-- Go to the current slot if its candidate is sent; if not, no later slot's is (candidates rise), the window's sends are over
and one extra receive follows if there was none (R192; log 27). -/
def State.seekSlot (s : State) : State :=
  if s.wSlot.toNat < s.cfg.window.toNat ∧ s.sendable = true then { s with pstep := .send }
  else if s.wsent then { s with wSlot := s.cfg.window, pstep := .report }
  else { s with wSlot := s.cfg.window, pstep := .rxTimed }

/-- An RX.POLL of the engine has returned: next slot, or PR.REPORT after the extra receive (R192, R198). -/
def State.slotDone (s : State) : State :=
  if s.wSlot.toNat < s.cfg.window.toNat then State.seekSlot { s with wSlot := s.wSlot + 1 }
  else { s with pstep := .report }

/-! ### Returns of the link-supervisor operations to their callers

Each returns to the line of the procedure that PHASE and PSTEP say called it. Where neither is a place that calls it, the spec is
silent and the return is the last line below, or the one for that PHASE: DESIGN CHOICE (log 29). -/

/-- LS.OPEN returned Ok (45_control.md R231, 42_handshake.md R170). -/
def State.openReturn (s : State) : State :=
  { s with op := .noOp, phase := .sendingDigest, pstep := .boundary, hsK := 0 }

/-- LS.SEND returned, its result ignored: the gap in the handshake, the paced receive in the engine (R153, R176, R198). -/
def State.sendReturn (s : State) : State :=
  if s.phase = .transfer then { s with op := .noOp, wsent := true, pstep := .rxTimed }
  else { s with op := .noOp, pstep := .gap }

/-- LS.RECV answered `None`: RX.POLL returns (R157, R176, R198). -/
def State.recvNone (s : State) : State :=
  if s.phase = .transfer then State.slotDone { s with op := .noOp }
  else { s with op := .noOp, pstep := .eval }

/-- LS.CLOSE's effect, `LINK <- CLOSED; CHAN <- none; OP <- NONE`, and its return: DONE from BTE.EXIT (43_transfer.md R194),
ABORTED from ABORT_EXIT (45_control.md R238). -/
def State.closeReturn (s : State) : State :=
  if s.phase = .transfer ∧ s.pstep = .exit then
    { s with link := .closed, chan := none, op := .noOp, phase := .done, pstep := .boundary }
  else
    { s with link := .closed, chan := none, op := .noOp, opstep := .tryPort, phase := .aborted, pstep := .boundary }

/-! ### Exceptions (60_exceptions.md) -/

/-- LS.RECOVER begins: its first step is REC_CLOSE; nothing is saved (41_link.md R155, R260). -/
def State.startRecovery (s : State) : State := { s with opstep := .recClose }

/-- TAKING AN EXCEPTION: what the block does for each error, in hardware (R254 to R258, R260). A ConfigurationError and a
LinkError of the initial open end the run and write ERR; a LinkError of a send or a receive starts LS.RECOVER, saving nothing; a
DecodeError drops the frame. -/
def takeException (x : ErrorCause) (s : State) : State :=
  match x with
  | .config _ => { s with err := errCode x, phase := .cfgError }
  | .linkOpenFailed => { s with link := .closed, chan := none, op := .noOp, err := errCode x, phase := .linkFailed }
  | .linkSendFailed | .linkRecvFailed => s.startRecovery
  | .decode _ => s

/-- THE RETURN from LS.RECOVER to the operation it ran inside (R255, R258, 41_link.md R152 to R155): LS.OPEN ends with its
result, LS.SEND retries once on a new channel or returns, LS.RECV answers `None` whatever the result. -/
def returnFromRecovery (ok : Bool) (s : State) : State :=
  match s.op with
  | .openOp => if ok then s.openReturn else takeException .linkOpenFailed s
  | .sendOp => if ok then { s with opstep := .retry } else s.sendReturn
  | .recvOp => s.recvNone
  | .noOp | .closeOp => s

/-! ### Received messages -/

/-- The consume action of the phase (42_handshake.md R172, 43_transfer.md R193): a PROGRESS message goes to FRESH in the
handshake and to CURSOR in the engine; everything else is dropped (R256). -/
def State.consume (m : Message) (s : State) : State :=
  match m with
  | .progress rd rl wr idx =>
    match s.phase with
    | .sendingDigest | .sendingLength => { s with fresh := { valid := true, rd := rd, rl := rl, wr := wr, idx := idx } }
    | .transfer => { s with cursor := cursorUpdate s.cursor wr idx }
    | .idle | .opening | .digestConfirmed | .lengthConfirmed | .done | .aborted | .cfgError | .linkFailed => s
  | .decodeError c => takeException (.decode c) s
  | .data _ _ | .infoLen _ | .infoDig _ _ | .notFutp => s

/-- The outstanding `Port.recv` on channel `c` answered a frame that decodes to `m`: LS.RECV returns it, RX.POLL hands it to
consume and goes on draining (41_link.md R154, R157). -/
def State.accept (c : Handle) (m : Message) (s : State) : State :=
  State.consume m { s with op := .noOp, pstep := .rxDrain, trace := .received c s.recvTimeout .frame :: s.trace }

/-! ### Ports (41_link.md R150) -/

/-- `Port.open(CFG_BUS, CFG_BITRATE)`: on `Chan(c)` the channel is held and LINK = UP. -/
def portOpen (s : State) (ok fail : State → State) : Host.Outcome State Fault Refusal :=
  awaitReply s fun r s =>
    match r.opened with
    | some c => ok { s with chan := some c, link := .up, trace := .opened s.cfg.bus s.cfg.bitrate c :: s.trace }
    | none => fail (s.log (.openFailed s.cfg.bus s.cfg.bitrate))

/-- `Port.send(c, TXF.id, TXF.payload)`. -/
def portSend (s : State) (c : Handle) (ok fail : State → State) : Host.Outcome State Fault Refusal :=
  awaitReply s fun r s =>
    let s := s.log (.sent c s.txf r.sent)
    if r.sent then ok s else fail s

/-- `Port.recv(c, t)` with the timeout of the receive in progress. -/
def portRecv (s : State) (c : Handle) (got : RxFrame → State → State) (nothing fail : State → State) :
    Host.Outcome State Fault Refusal :=
  awaitReply s fun r s =>
    match r.received with
    | .frame f => got f s
    | .nothing => nothing (s.log (.received c s.recvTimeout .nothing))
    | .err => fail (s.log (.received c s.recvTimeout .err))

/-- A request whose only answer is `Done`: `Port.bringUp`, `Port.close`, `Delay`. -/
def portDone (s : State) (e : Event) (k : State → State) : Host.Outcome State Fault Refusal :=
  awaitReply s fun _ s => k (s.log e)

end Sys2Proof.Machine
end

