-- ==== Sys2Proof/Machine/Codec.lean ====
section
/-!
DEFINITION. The pure functions of the codec as operations (40_codec.md): each reads its operands, and where the rule says so
CFG_BASE_ID, IMG_LEN and IMG, writes no register, takes no atomic step, and returns its result to its caller (log 7).
-/
namespace Sys2Proof.Machine

/-- `return v` (00_scope.md R13). -/
def returnValue (v : Ret) (s : State) : Host.Outcome State Fault Refusal := .next { s with ret := v }

/-- BLOCKCOUNT(L) (R121). -/
def execBlockCount (len : BitVec 32) (s : State) : Host.Outcome State Fault Refusal :=
  returnValue (.count (blockCountOf len)) s

/-- BLK.FETCH(i) (R122), for i below `ceil(L / 7)` (U10). -/
def execBlkFetch (index : BitVec 32) (s : State) : Host.Outcome State Fault Refusal :=
  match s.fetchBlock index.toNat with
  | some d => returnValue (.block d) s
  | none => .refused .operandOutOfRange

/-- ENC.DATA(i, bytes) (R123), for i below 2^26 (U10). -/
def execEncData (index : BitVec 32) (block : Block) (s : State) : Host.Outcome State Fault Refusal :=
  if index.toNat < 2 ^ 26 then returnValue (.frame (encodeData s.cfg.baseId (index.setWidth 26) block)) s
  else .refused .operandOutOfRange

/-- ENC.INFO_LEN(L) (R124). -/
def execEncInfoLen (len : BitVec 32) (s : State) : Host.Outcome State Fault Refusal :=
  returnValue (.frame (encodeInfoLen s.cfg.baseId len)) s

/-- ENC.INFO_DIG(k, c) (R125), for k in 0 .. 3 (U10). -/
def execEncInfoDig (chunkIndex : Byte) (chunk : BitVec 32) (s : State) : Host.Outcome State Fault Refusal :=
  if chunkIndex.toNat ≤ 3 then returnValue (.frame (encodeInfoDig s.cfg.baseId chunkIndex chunk)) s
  else .refused .operandOutOfRange

/-- ENC.PROGRESS(rd, rl, wr, idx) (R126). -/
def execEncProgress (rd rl wr : Bool) (idx : BitVec 32) (s : State) : Host.Outcome State Fault Refusal :=
  returnValue (.frame (encodeProgress s.cfg.baseId rd rl wr idx)) s

/-- DEMUX(id) (R128). -/
def execDemux (id : Ident) (s : State) : Host.Outcome State Fault Refusal :=
  returnValue (.kind (demuxId s.cfg.baseId id)) s

/-- DECODE(id, payload, len) (R129). -/
def execDecode (id : Ident) (payload : Payload) (len : Fin 9) (s : State) : Host.Outcome State Fault Refusal :=
  returnValue (.message (decodeMessage s.cfg.baseId { id := id, payload := payload, len := len })) s

/-- DEC.DATA(id, payload) (R131; log 20). -/
def execDecData (id : Ident) (payload : Payload) (s : State) : Host.Outcome State Fault Refusal :=
  returnValue (.message (decodeDataFields id payload)) s

/-- DEC.INFO(payload) (R132). -/
def execDecInfo (payload : Payload) (s : State) : Host.Outcome State Fault Refusal :=
  returnValue (.message (decodeInfoFields payload)) s

/-- DEC.PROGRESS(payload) (R133). -/
def execDecProgress (payload : Payload) (s : State) : Host.Outcome State Fault Refusal :=
  returnValue (.message (decodeProgressFields payload)) s

/-- CUR.UPDATE(cur, wr, idx) (43_transfer.md R195), the pure reducer; consume_bte stores what it returns into CURSOR (R193). For a cur
below -1, which R195 does not give it, it computes the signed maximum too: DESIGN CHOICE (log 31). -/
def execCurUpdate (cur : Signed33) (wr : Bool) (idx : BitVec 32) (s : State) : Host.Outcome State Fault Refusal :=
  returnValue (.cursor (cursorUpdate cur wr idx)) s

end Sys2Proof.Machine
end

