-- ==== Sys2Proof/Machine/Control.lean ====
section
/-!
DEFINITION. The host commands, the configuration check and the abort exit (45_control.md R230 to R240).
-/
namespace Sys2Proof.Machine

/-- The largest image START accepts, 7 x 2^26 bytes (R232). -/
def maxImageLen : Nat := 469762048

/-- CONFIG_CHECK (R232): the seven checks in their order, the first that fails gives the cause. -/
def State.configCheck (s : State) : Option ConfigCause :=
  if s.cfg.presentBase = false then some .missingBaseId
  else if s.cfg.presentRate = false then some .missingBitrate
  else if s.cfg.baseId &&& indexMask ≠ 0 then some .invalidBaseId
  else if s.cfg.bitrate = 0 then some .invalidBitrate
  else if s.cfg.window = 0 then some .invalidWindow
  else if s.cfg.gran = 0 then some .invalidGranularity
  else if maxImageLen < s.imgLen.toNat then some .imageTooLarge
  else none

/-- CONFIG_CHECK executed on its own: its result is returned (R232; log 7). -/
def execConfigCheck (s : State) : Host.Outcome State Fault Refusal := .next { s with ret := .check s.configCheck }

/-- The first lines of START: the run state as after reset (R231, 70_reset_and_hazards.md R292). TXF and the FRESH fields besides
valid, which R231 does not write and 93_implementation_defined.md U1 leaves at any value after START, keep what they held: DESIGN
CHOICE (log 11). -/
def State.freshRun (s : State) : State :=
  { s with
    err := 0, abortReq := false, digestOk := false, lengthOk := false
    pstep := .boundary, hsK := 0, wSlot := 0, op := .noOp, opstep := .tryPort, fresh := { s.fresh with valid := false }
    cursor := -1, lastrep := -1, wbase := -1, wsent := false, blockcount := 0 }

/-- START (R231): outside a run a fresh run begins, with the ConfigurationError taken if a check fails; in a running phase it
is ignored (R234). LS.OPEN is the next operation. -/
def execStart (s : State) : Host.Outcome State Fault Refusal :=
  if s.phase.atRest then
    match s.configCheck with
    | some c => .next (takeException (.config c) s.freshRun)
    | none => .next { s.freshRun with blockcount := (blockCountOf s.imgLen).setWidth 27, phase := .opening }
  else .next s

/-- ABORT (R238): latched in a running phase, nothing otherwise. -/
def execAbort (s : State) : Host.Outcome State Fault Refusal :=
  if s.phase.atRest then .next s else .next { s with abortReq := true }

/-- ABORT_EXIT (R238): at an iteration boundary with ABORT_REQ = 1 (R239), LS.CLOSE, whose return sets PHASE <- ABORTED. Executed at an
engine boundary that is complete, which R191 gives to BTE.EXIT, it aborts all the same: DESIGN CHOICE (log 30). -/
def execAbortExit (s : State) : Host.Outcome State Fault Refusal :=
  match s.phase, s.op, s.pstep, s.abortReq with
  | .sendingDigest, .noOp, .boundary, true | .sendingLength, .noOp, .boundary, true | .transfer, .noOp, .boundary, true =>
    .next (s.call .closeOp)
  | _, _, _, _ => .refused .notSelected

end Sys2Proof.Machine
end

