-- ==== Sys2Proof/Machine/Engine.lean ====
section
/-!
DEFINITION. The block-transfer engine and the progress reporter (43_transfer.md, 44_progress.md). Each execution makes one line
of the table of R198.
-/
namespace Sys2Proof.Machine

/-- BTE.ENTER (R190), with the event at 0 bytes (R223). -/
def execBteEnter (s : State) : Host.Outcome State Fault Refusal :=
  match s.phase, s.op with
  | .lengthConfirmed, .noOp =>
    .next (State.emit { delta := 0, confirmed := 0, total := s.imgLen }
      { s with cursor := -1, lastrep := -1, wbase := -1, wsent := false, wSlot := 0, phase := .transfer, pstep := .boundary })
  | _, _ => .refused .notSelected

/-- The DATA frame of the current slot's candidate (R192). -/
def State.candidateFrame (s : State) : Option Frame :=
  if 0 ≤ s.candidate then s.dataFrame s.candidate.toNat else none

/-- BTE.WINDOW (R192): latch the window, send a candidate, call its RX.POLL's receives. As R192 writes it, it makes no test of its own
at the boundary: executed at one that R191 gives to BTE.EXIT or ABORT_EXIT it opens a window all the same, DESIGN CHOICE (log 30). -/
def execBteWindow (s : State) : Host.Outcome State Fault Refusal :=
  match s.phase, s.op, s.pstep with
  | .transfer, .noOp, .boundary => .next (State.seekSlot { s with wbase := s.cursor, wsent := false, wSlot := 0 })
  | .transfer, .noOp, .send =>
    match s.candidateFrame with
    | some f => .next (State.call .sendOp { s with txf := f })
    | none => .refused .operandOutOfRange
  | .transfer, .noOp, .rxTimed | .transfer, .noOp, .rxDrain => .next (s.call .recvOp)
  | _, _, _ => .refused .notSelected

/-- `Emit((CURSOR - LASTREP) * 7, (CURSOR + 1) * 7, IMG_LEN); LASTREP <- CURSOR` (R221, R222). -/
def State.emitProgress (s : State) : State := State.emit s.progressEvent { s with lastrep := s.cursor }

/-- PR.REPORT (R221), then back to the boundary (R192). -/
def execPrReport (s : State) : Host.Outcome State Fault Refusal :=
  match s.phase, s.op, s.pstep with
  | .transfer, .noOp, .report =>
    if s.reportDue then .next { s.emitProgress with pstep := .boundary } else .next { s with pstep := .boundary }
  | _, _, _ => .refused .notSelected

/-- PR.FLUSH (R222). -/
def execPrFlush (s : State) : Host.Outcome State Fault Refusal :=
  match s.phase, s.op, s.pstep with
  | .transfer, .noOp, .exit => if s.flushDue then .next s.emitProgress else .next s
  | _, _, _ => .refused .notSelected

/-- BTE.EXIT (R194): PSTEP <- EXIT; PR.FLUSH; LS.CLOSE, whose return sets PHASE <- DONE. As R194 writes it, it makes no test of its own:
executed at a boundary that R191 does not give it, the image not complete, it exits all the same, DESIGN CHOICE (log 30). -/
def execBteExit (s : State) : Host.Outcome State Fault Refusal :=
  match s.phase, s.op, s.pstep with
  | .transfer, .noOp, .boundary => .next { s with pstep := .exit }
  | .transfer, .noOp, .exit => if s.flushDue then .next s.emitProgress else .next (s.call .closeOp)
  | _, _, _ => .refused .notSelected

end Sys2Proof.Machine
end

