-- ==== Sys2Proof/Machine/Frames.lean ====
section
/-!
DEFINITION. The four wire frames as operations: a frame is executed when it is what the outstanding `Port.recv` answered
(41_link.md R154, R157; log 8). When no receive is outstanding it stays in the channel's backlog, which is the environment's
(10_state.md R41), and no register of the block changes.
-/
namespace Sys2Proof.Machine

/-- The frame is taken off the script if it stands there as an answer. -/
def State.dropReply (s : State) : State :=
  match s.script with
  | .reply _ :: _ => s.pop
  | [] | .host _ :: _ | .reset :: _ | .tick :: _ | .any :: _ => s

/-- A frame that decodes to `m` reaches the block. -/
def receiveFrame (m : Message) (s : State) : Host.Outcome State Fault Refusal :=
  if s.receiving then
    match s.live with
    | some c => .next (s.dropReply.accept c m)
    | none => .next s
  else .next s

/-- DATA received: decoded and dropped (40_codec.md R131, 60_exceptions.md R256). -/
def execData (index : Index) (block : Block) (s : State) : Host.Outcome State Fault Refusal :=
  receiveFrame (.data index block) s

/-- INFO.LEN received: decoded and dropped (40_codec.md R132, 60_exceptions.md R256). -/
def execInfoLen (len : BitVec 32) (s : State) : Host.Outcome State Fault Refusal :=
  receiveFrame (.infoLen len) s

/-- INFO.DIG received: decoded and dropped (40_codec.md R132, 60_exceptions.md R256). -/
def execInfoDig (chunkIndex : Byte) (chunk : BitVec 32) (s : State) : Host.Outcome State Fault Refusal :=
  receiveFrame (.infoDig chunkIndex chunk) s

/-- PROGRESS received: the phase's consume action applies it (42_handshake.md R172, 43_transfer.md R193). -/
def execProgress (rd rl wr : Bool) (idx : BitVec 32) (s : State) : Host.Outcome State Fault Refusal :=
  receiveFrame (.progress rd rl wr idx) s

end Sys2Proof.Machine
end

