-- ==== Sys2Proof/Machine/Handshake.lean ====
section
/-!
DEFINITION. The handshake phase (42_handshake.md R170 to R177). Each execution makes one line of the table of R176.
-/
namespace Sys2Proof.Machine

/-- The gap after a digest chunk is over: the next chunk, or the receive with FRESH cleared (R171, R176). -/
def State.digestGapDone (s : State) : State :=
  if s.hsK.toNat < 3 then { s with hsK := s.hsK + 1, pstep := .send }
  else { s with hsK := 4, fresh := { s.fresh with valid := false }, pstep := .rxTimed }

/-- The gap after the length is over: the receive with FRESH cleared (R174, R176). -/
def State.lengthGapDone (s : State) : State :=
  { s with fresh := { s.fresh with valid := false }, pstep := .rxTimed }

/-- Chunk HS_K of the digest as a frame; there is none for HS_K above 3 (R171, U10). -/
def State.digestFrame (s : State) : Option Frame :=
  (s.digest.chunk s.hsK.toNat).map (encodeInfoDig s.cfg.baseId (s.hsK.setWidth 8))

/-- HS.DIGEST_ROUND (R171). -/
def execHsDigestRound (s : State) : Host.Outcome State Fault Refusal :=
  match s.phase, s.op, s.pstep with
  | .sendingDigest, .noOp, .boundary =>
    if s.abortReq then .next (s.call .closeOp) else .next { s with hsK := 0, pstep := .send }
  | .sendingDigest, .noOp, .send =>
    match s.digestFrame with
    | some f => .next (State.call .sendOp { s with txf := f })
    | none => .refused .operandOutOfRange
  | .sendingDigest, .noOp, .gap => portDone s (.delayed s.cfg.tDigestGap) State.digestGapDone
  | .sendingDigest, .noOp, .rxTimed | .sendingDigest, .noOp, .rxDrain => .next (s.call .recvOp)
  | _, _, _ => .refused .notSelected

/-- HS.EVAL in SENDING_DIGEST, and DIGEST_CONFIRMED (R173). -/
def execHsEvalDigest (s : State) : Host.Outcome State Fault Refusal :=
  match s.phase, s.op, s.pstep with
  | .sendingDigest, .noOp, .eval =>
    if s.digestSeen then .next { s with digestOk := true, phase := .digestConfirmed }
    else .next { s with pstep := .boundary }
  | .digestConfirmed, .noOp, _ => .next { s with phase := .sendingLength, pstep := .boundary }
  | _, _, _ => .refused .notSelected

/-- HS.LENGTH_ROUND (R174). -/
def execHsLengthRound (s : State) : Host.Outcome State Fault Refusal :=
  match s.phase, s.op, s.pstep with
  | .sendingLength, .noOp, .boundary =>
    if s.abortReq then .next (s.call .closeOp) else .next { s with pstep := .send }
  | .sendingLength, .noOp, .send =>
    .next (State.call .sendOp { s with txf := encodeInfoLen s.cfg.baseId s.imgLen })
  | .sendingLength, .noOp, .gap => portDone s (.delayed s.cfg.tLengthGap) State.lengthGapDone
  | .sendingLength, .noOp, .rxTimed | .sendingLength, .noOp, .rxDrain => .next (s.call .recvOp)
  | _, _, _ => .refused .notSelected

/-- HS.EVAL in SENDING_LENGTH (R175). -/
def execHsEvalLength (s : State) : Host.Outcome State Fault Refusal :=
  match s.phase, s.op, s.pstep with
  | .sendingLength, .noOp, .eval =>
    if s.lengthSeen then .next { s with lengthOk := true, phase := .lengthConfirmed }
    else .next { s with pstep := .boundary }
  | _, _, _ => .refused .notSelected

end Sys2Proof.Machine
end

