-- ==== Sys2Proof/Machine/Link.lean ====
section
/-!
DEFINITION. The link supervisor (41_link.md R152 to R157). Each execution makes one transition: the call (OP = NONE), or the
port request OPSTEP names. These operations look at OP and OPSTEP, as their rules are written, and at PHASE and PSTEP only to know
what they return to. Executed in a phase or at a PSTEP that does not select them, where the spec is silent, they make their call
(OP = NONE) or their request and their return all the same: DESIGN CHOICE (log 29). No step does it.
-/
namespace Sys2Proof.Machine

/-- LS.OPEN (R152): the call, then the first `Port.open`; on `Err` LS.RECOVER follows. -/
def execLsOpen (s : State) : Host.Outcome State Fault Refusal :=
  match s.op, s.opstep with
  | .noOp, _ => .next (s.call .openOp)
  | .openOp, .tryPort => portOpen s State.openReturn State.startRecovery
  | _, _ => .refused .notSelected

/-- LS.SEND (R153): the call, the first `Port.send` (no request when no channel is held), and the one retried send after a
recovery. -/
def execLsSend (s : State) : Host.Outcome State Fault Refusal :=
  match s.op, s.opstep with
  | .noOp, _ => .next (s.call .sendOp)
  | .sendOp, .tryPort =>
    match s.live with
    | some c => portSend s c State.sendReturn (takeException .linkSendFailed)
    | none => .next (takeException .linkSendFailed s)
  | .sendOp, .retry =>
    match s.live with
    | some c => portSend s c State.sendReturn State.sendReturn
    | none => .next s.sendReturn
  | _, _ => .refused .notSelected

/-- LS.RECV (R154): the call, then `Port.recv`; a frame is handed to the phase, an `Err` starts LS.RECOVER. -/
def execLsRecv (s : State) : Host.Outcome State Fault Refusal :=
  match s.op, s.opstep with
  | .noOp, _ => .next (s.call .recvOp)
  | .recvOp, .tryPort =>
    match s.live with
    | some c =>
      portRecv s c (fun f s => s.accept c (decodeMessage s.cfg.baseId f)) State.recvNone (takeException .linkRecvFailed)
    | none => .next (takeException .linkRecvFailed s)
  | _, _ => .refused .notSelected

/-- LS.RECOVER's first line done: `LINK <- DOWN; CHAN <- none` (R155). -/
def State.channelLost (s : State) : State := { s with link := .down, chan := none, opstep := .recBringup }

/-- LS.RECOVER (R155): close the held channel if there is one, bring the link up, open. It runs inside LS.OPEN, LS.SEND and
LS.RECV and does not nest (60_exceptions.md R259). -/
def execLsRecover (s : State) : Host.Outcome State Fault Refusal :=
  match s.op, s.opstep with
  | .openOp, .recClose | .sendOp, .recClose | .recvOp, .recClose =>
    match s.live with
    | some c => portDone s (.closed c) State.channelLost
    | none => .next s.channelLost
  | .openOp, .recBringup | .sendOp, .recBringup | .recvOp, .recBringup =>
    portDone s (.broughtUp s.cfg.bus s.cfg.bitrate) fun s => { s with opstep := .recOpen }
  | .openOp, .recOpen | .sendOp, .recOpen | .recvOp, .recOpen =>
    portOpen s (returnFromRecovery true) (returnFromRecovery false)
  | _, _ => .refused .notSelected

/-- LS.CLOSE (R156): the call, then `Port.close` of the held channel; with none held no request is made. -/
def execLsClose (s : State) : Host.Outcome State Fault Refusal :=
  match s.op with
  | .noOp => .next (s.call .closeOp)
  | .closeOp =>
    match s.live with
    | some c => portDone s (.closed c) State.closeReturn
    | none => .next s.closeReturn
  | .openOp | .sendOp | .recvOp => .refused .notSelected

/-- RX.POLL (R157): the timed receive or the next drain receive; the frames it gets are consumed as LS.RECV returns them. -/
def execRxPoll (s : State) : Host.Outcome State Fault Refusal :=
  match s.op, s.pstep with
  | .noOp, .rxTimed | .noOp, .rxDrain => .next (s.call .recvOp)
  | _, _ => .refused .notSelected

end Sys2Proof.Machine
end

