-- ==== Sys2Proof/Machine/Dispatch.lean ====
section
/-!
DEFINITION. The dispatch: one arm per operation, in the order of spec/opcode_table.json.
-/
namespace Sys2Proof.Machine

/-- One operation executed. -/
def exec (i : Instr) (s : State) : Host.Outcome State Fault Refusal :=
  match i with
  | .data index block => Sys2Proof.Machine.execData index block s
  | .infoLen len => Sys2Proof.Machine.execInfoLen len s
  | .infoDig chunkIndex chunk => Sys2Proof.Machine.execInfoDig chunkIndex chunk s
  | .progress rd rl wr idx => Sys2Proof.Machine.execProgress rd rl wr idx s
  | .start => Sys2Proof.Machine.execStart s
  | .abort => Sys2Proof.Machine.execAbort s
  | .blockCount len => Sys2Proof.Machine.execBlockCount len s
  | .blkFetch index => Sys2Proof.Machine.execBlkFetch index s
  | .encData index block => Sys2Proof.Machine.execEncData index block s
  | .encInfoLen len => Sys2Proof.Machine.execEncInfoLen len s
  | .encInfoDig chunkIndex chunk => Sys2Proof.Machine.execEncInfoDig chunkIndex chunk s
  | .encProgress rd rl wr idx => Sys2Proof.Machine.execEncProgress rd rl wr idx s
  | .demux id => Sys2Proof.Machine.execDemux id s
  | .decode id payload len => Sys2Proof.Machine.execDecode id payload len s
  | .decData id payload => Sys2Proof.Machine.execDecData id payload s
  | .decInfo payload => Sys2Proof.Machine.execDecInfo payload s
  | .decProgress payload => Sys2Proof.Machine.execDecProgress payload s
  | .lsOpen => Sys2Proof.Machine.execLsOpen s
  | .lsSend => Sys2Proof.Machine.execLsSend s
  | .lsRecv => Sys2Proof.Machine.execLsRecv s
  | .lsRecover => Sys2Proof.Machine.execLsRecover s
  | .lsClose => Sys2Proof.Machine.execLsClose s
  | .rxPoll => Sys2Proof.Machine.execRxPoll s
  | .hsDigestRound => Sys2Proof.Machine.execHsDigestRound s
  | .hsEvalDigest => Sys2Proof.Machine.execHsEvalDigest s
  | .hsLengthRound => Sys2Proof.Machine.execHsLengthRound s
  | .hsEvalLength => Sys2Proof.Machine.execHsEvalLength s
  | .bteEnter => Sys2Proof.Machine.execBteEnter s
  | .bteWindow => Sys2Proof.Machine.execBteWindow s
  | .curUpdate cur wr idx => Sys2Proof.Machine.execCurUpdate cur wr idx s
  | .bteExit => Sys2Proof.Machine.execBteExit s
  | .prReport => Sys2Proof.Machine.execPrReport s
  | .prFlush => Sys2Proof.Machine.execPrFlush s
  | .configCheck => Sys2Proof.Machine.execConfigCheck s
  | .abortExit => Sys2Proof.Machine.execAbortExit s

end Sys2Proof.Machine
end

