-- ==== Sys2Proof/Machine/Host.lean ====
section
/-!
DEFINITION. The host register interface (10_state.md R22, R27, R28, R33, R34, R40; 45_control.md R230) and the reset input
(70_reset_and_hazards.md R290, R291).
-/
namespace Sys2Proof.Machine

/-- The register a number names, 0x00 to 0x17 (R27, R33, R40). -/
def HostReg.ofNumber (n : Byte) : Option HostReg :=
  match n.toNat with
  | 0x00 => some .cmd
  | 0x01 => some .status
  | 0x02 => some .err
  | 0x03 => some .cfgBaseId
  | 0x04 => some .cfgBitrate
  | 0x05 => some .cfgBus
  | 0x06 => some .cfgWindow
  | 0x07 => some .cfgGran
  | 0x08 => some .cfgTDigestGap
  | 0x09 => some .cfgTLengthGap
  | 0x0A => some .cfgTHsRx
  | 0x0B => some .cfgTPace
  | 0x0C => some .cfgTDrain
  | 0x0D => some .imgLen
  | 0x0E => some (.digest 0)
  | 0x0F => some (.digest 1)
  | 0x10 => some (.digest 2)
  | 0x11 => some (.digest 3)
  | 0x12 => some .cursor
  | 0x13 => some .lastrep
  | 0x14 => some .blockcount
  | 0x15 => some .evtDelta
  | 0x16 => some .evtConfirmed
  | 0x17 => some .evtTotal
  | _ => none

/-- DIGEST[k] for a 2-bit index (20_memory.md R60). -/
def DigestRegs.at (d : DigestRegs) (k : Fin 4) : BitVec 32 :=
  match k with
  | 0 => d.c0
  | 1 => d.c1
  | 2 => d.c2
  | 3 => d.c3

/-- DIGEST[k] <- v. -/
def DigestRegs.put (d : DigestRegs) (k : Fin 4) (v : BitVec 32) : DigestRegs :=
  match k with
  | 0 => { d with c0 := v }
  | 1 => { d with c1 := v }
  | 2 => { d with c2 := v }
  | 3 => { d with c3 := v }

/-- FRESH as a word: valid in bit 35, rd, rl, wr in bits 34, 33, 32, idx below (log 23). -/
def Fresh.word (f : Fresh) : BitVec 36 :=
  BitVec.ofBool f.valid ++ BitVec.ofBool f.rd ++ BitVec.ofBool f.rl ++ BitVec.ofBool f.wr ++ f.idx

/-- The current value of a register: the bits it holds, signed registers as their pattern, control registers as their code (R22,
R26, R28, R40, 60_exceptions.md R268; log 23). -/
def State.hostValue (s : State) : HostReg → HostValue
  | .cmd => .word 0
  | .status => .word s.statusWord.toNat
  | .err => .word s.err.toNat
  | .cfgBaseId => .word s.cfg.baseId.toNat
  | .cfgBitrate => .word s.cfg.bitrate.toNat
  | .cfgBus => .bus s.cfg.bus
  | .cfgWindow => .word s.cfg.window.toNat
  | .cfgGran => .word s.cfg.gran.toNat
  | .cfgTDigestGap => .duration s.cfg.tDigestGap
  | .cfgTLengthGap => .duration s.cfg.tLengthGap
  | .cfgTHsRx => .duration s.cfg.tHsRx
  | .cfgTPace => .duration s.cfg.tPace
  | .cfgTDrain => .duration s.cfg.tDrain
  | .imgLen => .word s.imgLen.toNat
  | .digest k => .word (s.digest.at k).toNat
  | .cursor => .word s.cursor.toNat
  | .lastrep => .word s.lastrep.toNat
  | .blockcount => .word s.blockcount.toNat
  | .evtDelta => .word s.evt.delta.toNat
  | .evtConfirmed => .word s.evt.confirmed.toNat
  | .evtTotal => .word s.evt.total.toNat
  | .cfgPresent => .word (BitVec.ofBool s.cfg.presentRate ++ BitVec.ofBool s.cfg.presentBase).toNat
  | .wbase => .word s.wbase.toNat
  | .wsent => .word s.wsent.toNat
  | .fresh => .word s.fresh.word.toNat
  | .txf => .word (frameWord s.txf).toNat
  | .pstep => .word s.pstep.code.toNat
  | .hsK => .word s.hsK.toNat
  | .wSlot => .word s.wSlot.toNat
  | .op => .word s.op.code.toNat
  | .opstep => .word s.opstep.code.toNat
  | .chan => .channel s.chan

/-- The effect of a host write that takes effect (R27, R33, R34); writing CFG_BASE_ID or CFG_BITRATE sets its CFG_PRESENT bit. -/
def State.applyWrite (w : HostWrite) (s : State) : State :=
  match w with
  | .baseId v => { s with cfg := { s.cfg with baseId := v, presentBase := true } }
  | .bitrate v => { s with cfg := { s.cfg with bitrate := v, presentRate := true } }
  | .bus b => { s with cfg := { s.cfg with bus := b } }
  | .window v => { s with cfg := { s.cfg with window := v } }
  | .gran v => { s with cfg := { s.cfg with gran := v } }
  | .tDigestGap d => { s with cfg := { s.cfg with tDigestGap := d } }
  | .tLengthGap d => { s with cfg := { s.cfg with tLengthGap := d } }
  | .tHsRx d => { s with cfg := { s.cfg with tHsRx := d } }
  | .tPace d => { s with cfg := { s.cfg with tPace := d } }
  | .tDrain d => { s with cfg := { s.cfg with tDrain := d } }
  | .imgLen v => { s with imgLen := v }
  | .digest k v => { s with digest := s.digest.put k v }
  | .image a b => { s with img := Memory.set s.img a.toNat b }

/-- A host write: in IDLE or a terminal phase it takes effect, in a running phase it is ignored (R28). -/
def State.hostWrite (w : HostWrite) (s : State) : State := if s.phase.atRest then s.applyWrite w else s

/-- A host access other than a START or ABORT command (R230). Reads have no side effect on the block (R28). -/
def hostAccess (a : HostAccess) (s : State) : Host.Outcome State Fault Refusal :=
  match a with
  -- CMD values 0 and 3 are ignored (R40); 1 and 2 are the operations START and ABORT
  | .cmd _ => .next s
  | .write w => .next (s.hostWrite w)
  | .read r => .next (s.log (.hostRead r (s.hostValue r)))
  | .readNumber n =>
    match HostReg.ofNumber n with
    | some r => .next (s.log (.hostRead r (s.hostValue r)))
    | none => .refused (.noSuchRegister n.toNat)
  | .readImage a =>
    if a.toNat < s.imgLen.toNat then .next (s.log (.hostReadImage a (s.imgByte a.toNat)))
    else .fault (.noSuchImageAddress a.toNat)
  | .strayWrite n =>
    match HostReg.ofNumber n with
    | some _ => .refused (.notHostWritable n.toNat)
    | none => .refused (.noSuchRegister n.toNat)

/-- The reset input (R290, R291): every register at its reset value, the run abandoned and CHAN forgotten without a close. The
environment's turns and the record of the interface go on (log 24). -/
def State.hardReset (s : State) : State :=
  { State.reset with script := s.script, loop := s.loop, asked := s.asked, trace := .reset :: s.trace, epoch := s.epoch + 1 }

end Sys2Proof.Machine
end

