-- ==== Sys2Proof/Machine/Sequencer.lean ====
section
/-!
DEFINITION. Which operation comes next and what a step does: the block's fetch. The next operation is the host's command, the
frame the outstanding receive is answered with, or the internal operation the control state selects (30_encoding.md R100, R110,
R111). A step is one atomic step of 00_scope.md R13 with all the internal computation before it, so that nothing falls inside an
internal computation (log 3). Then the placing of an instruction word where the next step fetches it.
-/
namespace Sys2Proof.Machine

/-- The internal operation the control state selects (R111). -/
def State.selected (s : State) : Except Reject Instr := decodeControl s.controlCode

/-- The operation the block performs next: the frame it is receiving, if the answer at hand is a frame that decodes to one; else
the internal operation. A frame that does not decode is LS.RECV's to drop (40_codec.md R129, 60_exceptions.md R256). -/
def State.blockFetch (s : State) : Except Reject Instr :=
  match s.script with
  | .reply r :: _ =>
    if s.receiving then
      match r.received with
      | .frame f =>
        match decodeFrame s.cfg.baseId f with
        | .ok i => .ok i
        | .error _ => s.selected
      | .nothing | .err => s.selected
    else s.selected
  | [] | .host _ :: _ | .reset :: _ | .tick :: _ | .any :: _ => s.selected

/-- Internal computation (R13): the selected operations are executed, none of which makes an atomic step, until the control state
stands at one or at rest. At most six are (log 3), so `steps` never runs out. -/
def State.settle (steps : Nat) (s : State) : Host.Outcome State Fault Refusal :=
  match steps with
  | 0 => .next s
  | n + 1 =>
    if s.computing then
      match s.selected with
      | .ok i => andThen (exec i s) (State.settle n)
      | .error _ => .refused .noOperation
    else .next s

/-- More than the longest internal computation. -/
def settleSteps : Nat := 8

/-- The block at its atomic step runs the operation it fetches; a block at rest takes no step (10_state.md R25) and lets an answer
to no request pass by. -/
def State.serve (s : State) : Host.Outcome State Fault Refusal :=
  if s.phase.atRest then .next s.dropReply
  else
    match s.blockFetch with
    | .ok i => exec i s
    | .error _ => .refused .noOperation

/-- The block at its atomic step is given time and no answer: only an Emit needs none (log 4). A host access
between the computation and the Emit comes between the turn that computed and this one: DESIGN CHOICE (log 3). -/
def State.giveTime (s : State) : Host.Outcome State Fault Refusal := if s.atEmit then s.serve else .next s

/-- The host's turn: a command, or another access. -/
def State.serveHost (a : HostAccess) (s : State) : Host.Outcome State Fault Refusal :=
  match a with
  | .cmd v =>
    match decodeCommand v with
    | .ok i => exec i s
    | .error _ => hostAccess a s
  | .write _ | .read _ | .readNumber _ | .readImage _ | .strayWrite _ => hostAccess a s

/-- One step: the turn at the head of the script. The host and the reset act on the state as it is. With an answer at hand, or in
silence, the block computes up to its atomic step and makes it, or waits at it. Time alone lets it compute up to its atomic step,
or, where it stands at an Emit, make that, so that a host access can fall on either side of the computation, which the spec
leaves open (U25): DESIGN CHOICE (log 3). -/
def State.takeTurn (s : State) : Host.Outcome State Fault Refusal :=
  match s.script with
  | .host a :: _ => s.pop.serveHost a
  | .reset :: _ => .next s.pop.hardReset
  | .tick :: _ | .any :: _ => if s.computing then andThen (s.settle settleSteps) fun t => .next t.pop else s.pop.giveTime
  | .reply _ :: _ | [] => andThen (s.settle settleSteps) State.serve

/-- One step, on the environment's next turn. -/
def stepOnce (s : State) : Host.Outcome State Fault Refusal := s.drawTurn.takeTurn

/-- The block waiting in the engine for the answer of a `Port.recv` on a channel it holds. -/
def State.awaitingFrame (s : State) : State :=
  { s with phase := .transfer, pstep := .rxTimed, op := .recvOp, opstep := .tryPort, link := .up, chan := some { token := 0 } }

/-- An instruction word placed where the next step fetches it (log 17): a frame (12 bytes) as the answer of an outstanding
receive, a command (one byte) as the host's next access. -/
def State.placeWord (s : State) (nbits w : Nat) : State :=
  if nbits = 96 ∨ nbits = 93 then
    let f := (ofFrameWord (BitVec.ofNat 93 w)).received
    { s.awaitingFrame with script := .reply { received := .frame f } :: s.script }
  else { s with script := .host (.cmd (BitVec.ofNat 2 w)) :: s.script }

end Sys2Proof.Machine
end

