-- ==== Sys2Proof/Safety.lean ====
section
/-!
DEFINITION. What a safe run is: the channel discipline of the interface record (41_link.md R158), the control states the block
takes (10_state.md R26), the invariant every step keeps, and the turns of the environment that are legal.
-/
namespace Sys2Proof.Machine

/-- The channel held according to the record, newest event first: opened and neither closed nor forgotten by a reset since
(R158 (a)). -/
def heldChannel : List Event → Option Handle
  | [] => none
  | .opened _ _ c :: _ => some c
  | .closed _ :: _ => none
  | .reset :: _ => none
  | .openFailed _ _ :: t => heldChannel t
  | .sent _ _ _ :: t => heldChannel t
  | .received _ _ _ :: t => heldChannel t
  | .broughtUp _ _ :: t => heldChannel t
  | .delayed _ :: t => heldChannel t
  | .emitted _ :: t => heldChannel t
  | .hostRead _ _ :: t => heldChannel t
  | .hostReadImage _ _ :: t => heldChannel t

/-- Every request of the record was legal when it was made: an open or a bring-up only while no channel is held, a send, a
receive or a close only on the channel held (R158 (a), (b); 93_implementation_defined.md U11). -/
def disciplined : List Event → Bool
  | [] => true
  | .opened _ _ _ :: t => decide (heldChannel t = none) && disciplined t
  | .openFailed _ _ :: t => decide (heldChannel t = none) && disciplined t
  | .broughtUp _ _ :: t => decide (heldChannel t = none) && disciplined t
  | .sent c _ _ :: t => decide (heldChannel t = some c) && disciplined t
  | .received c _ _ :: t => decide (heldChannel t = some c) && disciplined t
  | .closed c :: t => decide (heldChannel t = some c) && disciplined t
  | .delayed _ :: t => disciplined t
  | .emitted _ :: t => disciplined t
  | .hostRead _ _ :: t => disciplined t
  | .hostReadImage _ _ :: t => disciplined t
  | .reset :: t => disciplined t

/-- The link-supervisor control states of a send or a receive: between REC_CLOSE and REC_OPEN no channel is held and LINK is
DOWN; a retry is made on a channel (R153 to R155). -/
def State.transferOpLegal (s : State) (retry : Bool) : Bool :=
  match s.opstep with
  | .tryPort | .recClose => true
  | .recBringup | .recOpen => decide (s.link = .down)
  | .retry => retry && decide (s.link = .up)

/-- OP and OPSTEP fit PSTEP in a phase that sends and receives; `closing` says whether PSTEP is one at which LS.CLOSE is called. -/
def State.linkOpLegal (s : State) (closing : Bool) : Bool :=
  match s.op with
  | .noOp => true
  | .openOp => false
  | .sendOp => decide (s.pstep = .send) && s.transferOpLegal true
  | .recvOp => (decide (s.pstep = .rxTimed) || decide (s.pstep = .rxDrain)) && s.transferOpLegal false
  | .closeOp => closing && decide (s.opstep = .tryPort)

/-- The control states the block takes, phase by phase (R24, R26, 42_handshake.md R176, 43_transfer.md R198). -/
def State.controlLegal (s : State) : Bool :=
  match s.phase with
  | .idle | .done | .aborted | .cfgError | .linkFailed => decide (s.link = .closed)
  | .opening =>
    match s.op with
    | .noOp => decide (s.link = .closed)
    | .openOp =>
      match s.opstep with
      | .tryPort | .recClose => decide (s.link = .closed)
      | .recBringup | .recOpen => decide (s.link = .down)
      | .retry => false
    | .sendOp | .recvOp | .closeOp => false
  | .digestConfirmed | .lengthConfirmed => decide (s.op = .noOp) && decide (s.link ≠ .closed)
  | .sendingDigest =>
    decide (s.link ≠ .closed) && s.linkOpLegal (decide (s.pstep = .boundary)) &&
      match s.pstep with
      | .boundary | .rxTimed | .rxDrain | .eval => true
      | .send | .gap => decide (s.hsK.toNat < 4)
      | .report | .exit => false
  | .sendingLength =>
    decide (s.link ≠ .closed) && s.linkOpLegal (decide (s.pstep = .boundary)) &&
      match s.pstep with
      | .boundary | .rxTimed | .rxDrain | .eval | .send | .gap => true
      | .report | .exit => false
  | .transfer =>
    decide (s.link ≠ .closed) && s.linkOpLegal (decide (s.pstep = .boundary) || decide (s.pstep = .exit)) &&
      decide (s.wSlot.toNat ≤ s.cfg.window.toNat) &&
      match s.pstep with
      | .boundary | .rxTimed | .rxDrain | .report | .exit => true
      | .send => decide (s.wSlot.toNat < s.cfg.window.toNat) && s.sendable
      | .gap | .eval => false

/-- The invariant of the block. -/
structure State.Inv (s : State) : Prop where
  /-- the image memory is in canonical form -/
  image : Memory.wf s.img = true
  /-- CURSOR is in the range its update rule gives (10_state.md R29, 43_transfer.md R199) -/
  cursor_ge : -1 ≤ s.cursor.toInt
  /-- LASTREP is at least -1 and never above CURSOR (10_state.md R30) -/
  lastrep_ge : -1 ≤ s.lastrep.toInt
  lastrep_le : s.lastrep.toInt ≤ s.cursor.toInt
  /-- WBASE is a value CURSOR had (10_state.md R31) -/
  wbase_ge : -1 ≤ s.wbase.toInt
  wbase_le : s.wbase.toInt ≤ s.cursor.toInt
  /-- CHAN is the channel the record says is held (41_link.md R158 (a)) -/
  channel : s.chan = heldChannel s.trace
  /-- CHAN is present exactly when LINK = UP (10_state.md R39) -/
  linked : s.link = .up ↔ s.chan.isSome = true
  /-- at most one channel, and no use of a dead handle (41_link.md R158 (a), (b)) -/
  discipline : disciplined s.trace = true
  /-- in a run the configuration passed its checks and BLOCKCOUNT is that of the image (45_control.md R231, R232) -/
  config : s.phase.atRest = false → s.configCheck = none ∧ s.blockcount.toNat = (s.imgLen.toNat + 6) / 7
  /-- the control state is one the block takes -/
  control : s.controlLegal = true

/-- What TXF holds while a send is in progress: the frame the phase procedure encoded (10_state.md R36, 40_codec.md R127). -/
def State.txfSettled (s : State) : Prop :=
  s.op = .sendOp →
    (s.phase = .sendingDigest → s.digestFrame = some s.txf) ∧
    (s.phase = .sendingLength → s.txf = encodeInfoLen s.cfg.baseId s.imgLen) ∧
    (s.phase = .transfer → s.candidateFrame = some s.txf)

/-- The sum of the `delta` fields of the events of the record, newest first, back to the last event at 0 bytes, the one BTE.ENTER
emits (44_progress.md R223, R225 (a)). -/
def deltaSum : List Event → Nat
  | [] => 0
  | .emitted e :: t => if e.delta = 0 then 0 else e.delta.toNat + deltaSum t
  | .opened _ _ _ :: t => deltaSum t
  | .openFailed _ _ :: t => deltaSum t
  | .sent _ _ _ :: t => deltaSum t
  | .received _ _ _ :: t => deltaSum t
  | .broughtUp _ _ :: t => deltaSum t
  | .closed _ :: t => deltaSum t
  | .delayed _ :: t => deltaSum t
  | .hostRead _ _ :: t => deltaSum t
  | .hostReadImage _ _ :: t => deltaSum t
  | .reset :: t => deltaSum t

/-- What has been reported: the cumulative count of the last event and the sum of all deltas are the bytes of the blocks up to
LASTREP (44_progress.md R225 (a), (d)). -/
def State.reported (s : State) : Prop :=
  (s.evt.confirmed.toNat : Int) = (s.lastrep.toInt + 1) * 7 ∧ (deltaSum s.trace : Int) = (s.lastrep.toInt + 1) * 7

/-- In the engine the events tell the blocks reported so far; at its exit the cursor is at the last block; a finished transfer has
reported every block of the image (44_progress.md R225 (a), (b), 43_transfer.md R194, R201). -/
def State.eventsSettled (s : State) : Prop :=
  (s.phase = .transfer →
    s.reported ∧ s.evt.total = s.imgLen ∧
      (s.pstep = .exit → s.cursor.toInt = (s.blockcount.toNat : Int) - 1 ∧ (s.op = .closeOp → s.lastrep = s.cursor))) ∧
  (s.phase = .done →
    s.cursor.toInt = (s.blockcount.toNat : Int) - 1 ∧ s.evt.confirmed.toNat = 7 * s.blockcount.toNat ∧
      deltaSum s.trace = 7 * s.blockcount.toNat)

/-- The environment's next turn is no host access to something the spec does not give the host (93_implementation_defined.md
U12, 10_state.md R34, R40). -/
def State.legalTurn (s : State) : Bool :=
  match s.drawTurn.script with
  | .host (.readNumber n) :: _ => (HostReg.ofNumber n).isSome
  | .host (.readImage a) :: _ => decide (a.toNat < s.imgLen.toNat)
  | .host (.strayWrite _) :: _ => false
  | .host (.cmd _) :: _ | .host (.write _) :: _ | .host (.read _) :: _ => true
  | [] | .reset :: _ | .tick :: _ | .reply _ :: _ | .any :: _ => true

/-- The arrows of the phase graph, a phase that stays included (45_control.md R236). -/
def Phase.arrow : Phase → Phase → Bool
  | .idle, q | .done, q | .aborted, q | .cfgError, q | .linkFailed, q => decide (q = .cfgError) || decide (q = .opening)
  | .opening, q => decide (q = .sendingDigest) || decide (q = .linkFailed)
  | .sendingDigest, q => decide (q = .digestConfirmed) || decide (q = .aborted)
  | .digestConfirmed, q => decide (q = .sendingLength)
  | .sendingLength, q => decide (q = .lengthConfirmed) || decide (q = .aborted)
  | .lengthConfirmed, q => decide (q = .transfer)
  | .transfer, q => decide (q = .done) || decide (q = .aborted)

/-- The phases a step goes through: at most three arrows, and more than one only from a phase whose internal computation passes a
phase without an atomic step between (42_handshake.md R173). -/
def phasePath (p q : Phase) : Prop :=
  ∃ path : List Phase, path.length ≤ 3 ∧ (p.atRest = true ∨ p = .opening → path.length ≤ 1) ∧
    List.IsChain (fun a b => Phase.arrow a b = true) (p :: path) ∧ (p :: path).getLast? = some q

/-- An outcome in which the machine goes on. -/
def goesOn (o : Host.Outcome State Fault Refusal) : Prop := ∃ t, o = .next t

/-! ### The words of the statements -/

/-- `n` steps, one after the other, to the first stop. -/
def run : Nat → State → Host.Outcome State Fault Refusal
  | 0, s => .next s
  | n + 1, s =>
    match step s with
    | .next t => run n t
    | .fault f => .fault f
    | .refused r => .refused r

/-- A legal base identifier: bits 28..11 are zero (10_state.md R27). -/
def legalBase (b : Ident) : Prop := b &&& 0x1FFFF800#29 = 0#29

/-- `payload[b] = P[8b+7 : 8b]` (00_scope.md R11). -/
def payloadByte (p : Payload) (b : Nat) : Byte := (p >>> (8 * b)).setWidth 8

/-- Byte b of the block, `D[8b+7 : 8b]` (20_memory.md R64). -/
def blockByte (d : Block) (b : Nat) : Byte := (d >>> (8 * b)).setWidth 8

/-- Byte b of a u32, the byte 0 least significant (20_memory.md R63). -/
def wordByte (v : BitVec 32) (b : Nat) : Byte := (v >>> (8 * b)).setWidth 8

/-- `payload[1] | payload[2] << 8 | payload[3] << 16 | payload[4] << 24` (40_codec.md R132, R133). -/
def payloadU32 (p : Payload) : BitVec 32 :=
  (payloadByte p 1).setWidth 32 ||| (payloadByte p 2).setWidth 32 <<< 8 ||| (payloadByte p 3).setWidth 32 <<< 16
    ||| (payloadByte p 4).setWidth 32 <<< 24

/-- Every bit of the payload that no field of the frame occupies is zero (30_encoding.md R91, R94, R95, R98). -/
def paddingZero (p : Payload) : Instr → Prop
  | .infoLen _ => payloadByte p 5 = 0 ∧ payloadByte p 6 = 0 ∧ payloadByte p 7 = 0
  | .infoDig _ _ => payloadByte p 6 = 0 ∧ payloadByte p 7 = 0
  | .progress _ _ _ _ =>
    payloadByte p 0 >>> 3 = 0 ∧ payloadByte p 5 = 0 ∧ payloadByte p 6 = 0 ∧ payloadByte p 7 = 0
  | .data _ _ | .start | .abort | .blockCount _ | .blkFetch _ | .encData _ _ | .encInfoLen _ | .encInfoDig _ _
  | .encProgress _ _ _ _ | .demux _ | .decode _ _ _ | .decData _ _ | .decInfo _ | .decProgress _ | .lsOpen | .lsSend | .lsRecv
  | .lsRecover | .lsClose | .rxPoll | .hsDigestRound | .hsEvalDigest | .hsLengthRound | .hsEvalLength | .bteEnter | .bteWindow
  | .curUpdate _ _ _ | .bteExit | .prReport | .prFlush | .configCheck | .abortExit => True

/-- The condition under which a check of CONFIG_CHECK fails, as the table of 45_control.md R232 gives it. -/
def configFails (s : State) : ConfigCause → Bool
  | .missingBaseId => !s.cfg.presentBase
  | .missingBitrate => !s.cfg.presentRate
  | .invalidBaseId => decide (s.cfg.baseId &&& 0x1FFFF800#29 ≠ 0)
  | .invalidBitrate => decide (s.cfg.bitrate = 0)
  | .invalidWindow => decide (s.cfg.window = 0)
  | .invalidGranularity => decide (s.cfg.gran = 0)
  | .imageTooLarge => decide (s.imgLen.toNat > 469762048)

/-- The order of the checks (45_control.md R232). -/
def configOrder : List ConfigCause :=
  [.missingBaseId, .missingBitrate, .invalidBaseId, .invalidBitrate, .invalidWindow, .invalidGranularity, .imageTooLarge]

/-- `cand` of CUR.UPDATE as an integer (43_transfer.md R195). -/
def reportedIndex (wr : Bool) (idx : BitVec 32) : Int := if wr then (idx.toNat : Int) else (idx.toNat : Int) - 1

/-- The cursor after a sequence of reports, the first one first (43_transfer.md R193). -/
def cursorAfter (cur : Signed33) (reports : List (Bool × BitVec 32)) : Signed33 :=
  reports.foldl (fun c r => cursorUpdate c r.1 r.2) cur

/-- The registers whose value after reset the spec states hold it (70_reset_and_hazards.md R290). -/
def State.specReset (s : State) : Prop :=
  s.phase = .idle ∧ s.pstep = .boundary ∧ s.hsK = 0 ∧ s.wSlot = 0 ∧ s.op = .noOp ∧ s.opstep = .tryPort ∧
  s.cursor.toInt = -1 ∧ s.lastrep.toInt = -1 ∧ s.wbase.toInt = -1 ∧ s.wsent = false ∧ s.blockcount = 0 ∧
  s.fresh.valid = false ∧ s.digestOk = false ∧ s.lengthOk = false ∧ s.abortReq = false ∧
  s.link = .closed ∧ s.chan = none ∧
  s.hostValue .cmd = .word 0 ∧ s.hostValue .status = .word 0 ∧ s.err = 0 ∧
  s.evt.delta = 0 ∧ s.evt.confirmed = 0 ∧ s.evt.total = 0 ∧
  s.cfg.baseId = 0 ∧ s.cfg.bitrate = 0 ∧ s.cfg.presentBase = false ∧ s.cfg.presentRate = false ∧
  s.cfg.bus = Config.busName ∧ s.cfg.window = 2 ∧ s.cfg.gran = 1024 ∧
  s.cfg.tDigestGap = { num := 20, den := 1000 } ∧ s.cfg.tLengthGap = { num := 10, den := 1000 } ∧
  s.cfg.tPace = { num := 1, den := 3817 } ∧ s.cfg.tDrain.num = 0 ∧ s.cfg.tHsRx = Config.tHsRx ∧ s.imgLen = 0

/-- One of the operations a recovery runs in is in progress, where it is called: LS.OPEN in OPENING, LS.SEND at a send, LS.RECV at a
receive (41_link.md R152 to R155). -/
def State.recoverable (s : State) : Bool :=
  match s.op with
  | .openOp => decide (s.phase = .opening)
  | .sendOp => s.phase.exchanging && decide (s.pstep = .send)
  | .recvOp => s.phase.exchanging && (decide (s.pstep = .rxTimed) || decide (s.pstep = .rxDrain))
  | .noOp | .closeOp => false

/-- No answer stands at the head of the script. -/
def State.noReply (s : State) : Prop := ∀ r rest, s.script ≠ .reply r :: rest

/-- The environment's next turn is not the reset input. -/
def State.noReset (s : State) : Prop := ∀ rest, s.drawTurn.script ≠ .reset :: rest

/-- The environment's next turn is the block's: no host access and no reset. -/
def State.blockTurn (s : State) : Bool :=
  match s.drawTurn.script with
  | .host _ :: _ | .reset :: _ => false
  | [] | .tick :: _ | .reply _ :: _ | .any :: _ => true

/-- The turn at the head of the script is the next, and it is the block's. -/
def State.blockNext (s : State) : Prop := s.drawTurn = s ∧ s.blockTurn = true

/-- No duration: what stands for every duration where durations are forgotten. -/
def noDuration : Duration := { num := 0, den := 1 }

/-- A host value with its duration forgotten. -/
def HostValue.forget : HostValue → HostValue
  | .duration _ => .duration noDuration
  | .word v => .word v
  | .bus b => .bus b
  | .channel c => .channel c

/-- An event with its duration forgotten. -/
def Event.forget : Event → Event
  | .received c _ k => .received c noDuration k
  | .delayed _ => .delayed noDuration
  | .hostRead r v => .hostRead r v.forget
  | e => e

/-- The state with the duration registers, and the durations in the record, forgotten (60_exceptions.md R270). -/
def State.forgetDurations (s : State) : State :=
  { s with
    cfg := { s.cfg with
      tDigestGap := noDuration, tLengthGap := noDuration, tHsRx := noDuration
      tPace := noDuration, tDrain := noDuration }
    trace := s.trace.map Event.forget }

/-- Two outcomes that differ in durations alone. -/
def sameButDurations : Host.Outcome State Fault Refusal → Host.Outcome State Fault Refusal → Prop
  | .next s, .next t => s.forgetDurations = t.forgetDurations
  | .fault f, .fault g => f = g
  | .refused q, .refused r => q = r
  | .next _, .fault _ => False
  | .next _, .refused _ => False
  | .fault _, .next _ => False
  | .fault _, .refused _ => False
  | .refused _, .next _ => False
  | .refused _, .fault _ => False

end Sys2Proof.Machine
end

