-- ==== Sys2Proof/Certificates/Slice0/Obligations.lean ====
section
/-!
DEFINITION. The statements for the provers. A conclusion `exec i s = .next { s with … }` is the instruction's result, its frame (every
register, flag, special register and image byte not named is unchanged) and its completion in one. `s.script` and `s.trace` are
the model's own fields: the environment's turns, and the record of the interface (log 1, log 6).
-/

section
open Sys2Proof Sys2Proof.Machine

/-! ### Reset and rest -/

/-- R290: the state after reset holds every value the rule gives. What the rule calls unspecified (TXF, the FRESH fields besides
valid, DIGEST, IMG) is not stated. Durations are fractions of a second (log 15). -/
def Obligations.ResetHoldsSpecValues : Prop := State.specReset State.reset

/-- R291: the reset input, in any state, abandons the run: the registers take the values R290 gives and CHAN is forgotten with no
close on the interface. That the script and the record go on is the model's (log 24). -/
def Obligations.ResetTurnAbandonsRun : Prop :=
  ∀ (s : State) (rest : List Turn), s.script = .reset :: rest →
    ∃ t, step s = .next t ∧ t.specReset ∧ t.script = rest ∧ t.trace = .reset :: s.trace

/-- R25: at rest the block takes no step: silence, time and answers to no request change no register. That such a turn is taken
off the script is the model's (log 1). -/
def Obligations.AtRestTakesNoStep : Prop :=
  ∀ (s : State), s.phase.atRest = true →
    (s.script = [] → s.loop = [] → step s = .next s) ∧
    (∀ rest, s.script = .tick :: rest → step s = .next { s with script := rest }) ∧
    (∀ r rest, s.script = .reply r :: rest → step s = .next { s with script := rest })

/-! ### Fetch and decode -/

/-- A step runs the operation it fetches, on the environment's next turn. The host's command is executed (R110: a CMD value of 0 or 3
is ignored). Internal computation takes no step of its own: where the control state selects an operation that makes no atomic step,
the computation goes on from the state after it, it ends, nothing is recorded and no turn is taken (R13). The step is that of the
state at the computation's end, but for time alone, which ends there (log 3). At its atomic step the block runs the frame the
outstanding receive is answered with, LS.RECV for a frame that decodes to none, else the operation the control state selects; time
alone lets it make an Emit, and otherwise wait. Every operation that is fetched is well-formed. -/
def Obligations.StepRunsFetchedOperation : Prop :=
  (∀ (base : Ident) (c : Code) (i : Instr), decode base c = .ok i → i.wellFormed = true) ∧
  ∀ (s : State) (i : Instr),
    step s.drawTurn = step s ∧
    (∀ v rest, s.script = .host (.cmd v) :: rest →
      (decode s.cfg.baseId (.command v) = .ok i → step s = exec i { s with script := rest }) ∧
      (v = 0#2 ∨ v = 3#2 → step s = .next { s with script := rest })) ∧
    (∀ t, s.computing = true → decode s.cfg.baseId (.control s.controlCode) = .ok i → exec i s = .next t →
      s.settle settleSteps = t.settle settleSteps) ∧
    (∀ t, s.settle settleSteps = .next t → t.computing = false ∧ t.trace = s.trace ∧ t.script = s.script ∧
      (s.blockNext → (∀ rest, s.script ≠ .tick :: rest) → step s = step t) ∧
      (∀ rest, s.computing = true → s.script = .tick :: rest → step s = .next { t with script := rest })) ∧
    (s.computing = false → s.phase.atRest = false →
      (∀ r rest f, s.script = .reply r :: rest → s.receiving = true → r.received = .frame f →
        (decode s.cfg.baseId (.frame f) = .ok i → step s = exec i s) ∧
        (∀ e, decode s.cfg.baseId (.frame f) = .error e → step s = exec .lsRecv s)) ∧
      (decode s.cfg.baseId (.control s.controlCode) = .ok i →
        (s.script = [] → s.loop = [] → step s = exec i s) ∧
        (∀ r rest, s.script = .reply r :: rest → (s.receiving = false ∨ ∀ f, r.received ≠ .frame f) → step s = exec i s) ∧
        (∀ rest, s.script = .tick :: rest →
          step s = if s.atEmit = true then exec i { s with script := rest } else .next { s with script := rest })))

/-- Decode and encode agree: every well-formed operation that has a code (a frame, a command or a control state) is what its code
decodes to, for every legal base identifier. -/
def Obligations.OperationCodesDecodeBack : Prop :=
  ∀ (base : Ident) (i : Instr), legalBase base → i.wellFormed = true → i.format ≠ .function →
    decode base (encode base i) = .ok i ∧ (encode base i).format = i.format

/-- R134: the four round trips, and the other direction for frames whose padding is zero. -/
def Obligations.FrameCodecRoundTrip : Prop :=
  ∀ (base : Ident), legalBase base →
    (∀ i d, decodeMessage base (encodeData base i d).received = .data i d) ∧
    (∀ n, decodeMessage base (encodeInfoLen base n).received = .infoLen n) ∧
    (∀ (k : Byte) c, k.toNat ≤ 3 → decodeMessage base (encodeInfoDig base k c).received = .infoDig k c) ∧
    (∀ rd rl wr idx, decodeMessage base (encodeProgress base rd rl wr idx).received = .progress rd rl wr idx) ∧
    ∀ (f : RxFrame) (i : Instr), decodeFrame base f = .ok i → paddingZero f.payload i → encode base i = .frame f

/-- Words written out from the encodings of 30_encoding.md and the commands of R110 decode to their operations. -/
def Obligations.SpecWordsDecode : Prop :=
  decodeFrame 0x600#29 (ofFrameWord 0x00009600A7A6A5A4A3A2A134#93).received = .ok (.data 0x1234#26 0xA7A6A5A4A3A2A1#56) ∧
  decodeFrame 0x600#29 (ofFrameWord 0x000006010000000000000A00#93).received = .ok (.infoLen 10#32) ∧
  decodeFrame 0x600#29 (ofFrameWord 0x00000601000002DDCCBBAA01#93).received = .ok (.infoDig 2#8 0xDDCCBBAA#32) ∧
  decodeFrame 0x600#29 (ofFrameWord 0x000006020000000000000507#93).received = .ok (.progress true true true 5#32) ∧
  decodeCommand 1#2 = .ok .start ∧ decodeCommand 2#2 = .ok .abort ∧
  decodeCommand 0#2 = .error .ignoredCommand ∧ decodeCommand 3#2 = .error .ignoredCommand

/-- R96, R135: the identifier carries index bits 25..8 in its bits 28..11 and the base below, the check byte carries index bits 7..0,
and the two together give the index back. -/
def Obligations.DataIndexPacking : Prop :=
  ∀ (base : Ident) (i : Index) (d : Block), legalBase base →
    let f := encodeData base i d
    f.id.extractLsb' 11 18 = i.extractLsb' 8 18 ∧ f.id.extractLsb' 0 11 = base.extractLsb' 0 11 ∧
    payloadByte f.payload 0 = i.extractLsb' 0 8 ∧ dataIndex f.id (payloadByte f.payload 0) = i

/-- R128 with 20_memory.md R70: the identifier classes in the order of the rule, for a legal base; the three classes are disjoint. -/
def Obligations.DemuxByIdentifier : Prop :=
  ∀ (s : State) (id : Ident), legalBase s.cfg.baseId →
    exec (.demux id) s = .next { s with
      ret := .kind
        (if id.toNat = s.cfg.baseId.toNat + 2 then .progress
         else if id.toNat = s.cfg.baseId.toNat + 1 then .info
         else if id.toNat % 2048 = s.cfg.baseId.toNat then .data
         else .other) } ∧
    (id.toNat % 2048 = s.cfg.baseId.toNat → id.toNat ≠ s.cfg.baseId.toNat + 1 ∧ id.toNat ≠ s.cfg.baseId.toNat + 2)

/-- R129, R130: the identifier is looked at first, then the length, then the fields. -/
def Obligations.DecodeOrderOfChecks : Prop :=
  ∀ (s : State) (id : Ident) (p : Payload) (len : Fin 9),
    ∃ m, exec (.decode id p len) s = .next { s with ret := .message m } ∧
      match demuxId s.cfg.baseId id with
      | .other => m = .notFutp
      | .data => if len = 8 then exec (.decData id p) s = .next { s with ret := .message m } else m = .decodeError .badLength
      | .info => if len = 8 then exec (.decInfo p) s = .next { s with ret := .message m } else m = .decodeError .badLength
      | .progress =>
        if len = 8 then exec (.decProgress p) s = .next { s with ret := .message m } else m = .decodeError .badLength

/-- R131, R132, R133: the field decoders byte by byte; DEC.DATA for the identifiers R131 gives it, those whose low 11 bits are the
base identifier. -/
def Obligations.FieldDecodersReadBytes : Prop :=
  ∀ (s : State) (id : Ident) (p : Payload),
    (legalBase s.cfg.baseId → id &&& 0x7FF#29 = s.cfg.baseId →
      ∃ i d, exec (.decData id p) s = .next { s with ret := .message (.data i d) } ∧
        i.toNat = (((id &&& 0x1FFFF800#29) >>> 3) ||| (payloadByte p 0).setWidth 29).toNat ∧
        ∀ b, b ≤ 6 → blockByte d b = payloadByte p (1 + b)) ∧
    exec (.decInfo p) s = .next { s with
      ret := .message
        (if payloadByte p 0 = 0 then .infoLen (payloadU32 p)
         else if payloadByte p 0 = 1 then
           if (payloadByte p 5).toNat > 3 then .decodeError .badChunkIndex else .infoDig (payloadByte p 5) (payloadU32 p)
         else .decodeError .badType) } ∧
    exec (.decProgress p) s = .next { s with
      ret := .message
        (.progress ((payloadByte p 0).getLsbD 0) ((payloadByte p 0).getLsbD 1) ((payloadByte p 0).getLsbD 2) (payloadU32 p)) }

/-- R253: no decoder raises CHECK_MISMATCH. -/
def Obligations.CheckMismatchNeverRaised : Prop :=
  (∀ base f, decodeMessage base f ≠ .decodeError .checkMismatch) ∧
  (∀ p, decodeInfoFields p ≠ .decodeError .checkMismatch) ∧
  (∀ id p, decodeDataFields id p ≠ .decodeError .checkMismatch) ∧
  (∀ p, decodeProgressFields p ≠ .decodeError .checkMismatch) ∧
  ∀ (i : Instr) (s t : State), exec i s = .next t → t.err ≠ s.err → t.err ≠ 0x24#8

/-! ### Block arithmetic and encoders -/

/-- R121: `ceil(L / 7)`, the least n with 7 n at or above L, in 33 bits; at most 613,566,757, and 2^26 for an L that START accepts. -/
def Obligations.BlockCountIsCeiling : Prop :=
  ∀ (s : State) (len : BitVec 32),
    ∃ n : BitVec 33, exec (.blockCount len) s = .next { s with ret := .count n } ∧
      n.toNat = (len.toNat + 6) / 7 ∧ len.toNat ≤ 7 * n.toNat ∧ (∀ m, len.toNat ≤ 7 * m → n.toNat ≤ m) ∧
      n.toNat ≤ 613566757 ∧ (len.toNat ≤ 7 * 2 ^ 26 → n.toNat ≤ 2 ^ 26)

/-- R122: the image bytes of block i below the image's end, then zeros; no image byte at or past the end is read. -/
def Obligations.BlockFetchReadsAndPads : Prop :=
  ∀ (s : State) (i : BitVec 32), i.toNat < (s.imgLen.toNat + 6) / 7 →
    ∃ d, exec (.blkFetch i) s = .next { s with ret := .block d } ∧
      ∀ b, b ≤ 6 → blockByte d b = if 7 * i.toNat + b < s.imgLen.toNat then s.imgByte (7 * i.toNat + b) else 0

/-- R123: the identifier and the eight payload bytes of ENC.DATA. -/
def Obligations.EncDataBytes : Prop :=
  ∀ (s : State) (i : BitVec 32) (d : Block), legalBase s.cfg.baseId → i.toNat < 2 ^ 26 →
    ∃ f, exec (.encData i d) s = .next { s with ret := .frame f } ∧
      f.id = s.cfg.baseId ||| ((i <<< 3 &&& 0x1FFFF800#32).setWidth 29) ∧
      payloadByte f.payload 0 = wordByte i 0 ∧ ∀ b, b ≤ 6 → payloadByte f.payload (1 + b) = blockByte d b

/-- R124, R125, R126: the identifiers and the payload bytes of ENC.INFO_LEN, ENC.INFO_DIG and ENC.PROGRESS. -/
def Obligations.EncInfoAndProgressBytes : Prop :=
  ∀ (s : State) (v : BitVec 32) (k : Byte) (rd rl wr : Bool), legalBase s.cfg.baseId → k.toNat ≤ 3 →
    (∃ f, exec (.encInfoLen v) s = .next { s with ret := .frame f } ∧ f.id.toNat = s.cfg.baseId.toNat + 1 ∧
      (List.range 8).map (payloadByte f.payload) = [0, wordByte v 0, wordByte v 1, wordByte v 2, wordByte v 3, 0, 0, 0]) ∧
    (∃ f, exec (.encInfoDig k v) s = .next { s with ret := .frame f } ∧ f.id.toNat = s.cfg.baseId.toNat + 1 ∧
      (List.range 8).map (payloadByte f.payload) = [1, wordByte v 0, wordByte v 1, wordByte v 2, wordByte v 3, k, 0, 0]) ∧
    (∃ f, exec (.encProgress rd rl wr v) s = .next { s with ret := .frame f } ∧ f.id.toNat = s.cfg.baseId.toNat + 2 ∧
      (List.range 8).map (payloadByte f.payload) =
        [BitVec.ofNat 8 (rd.toNat + 2 * rl.toNat + 4 * wr.toNat), wordByte v 0, wordByte v 1, wordByte v 2, wordByte v 3, 0, 0, 0])

/-- THE MODEL'S CHOICES where the spec gives no meaning: encoders and BLK.FETCH outside their ranges are refused (log 18, U10);
DEC.DATA computes from every identifier, also one that is no DATA identifier (log 20); a frame executed while no receive is
outstanding changes nothing (log 8); the operations of the link supervisor make their call in every phase in which no operation is in
progress, and with their own OP code what they do at the port is the same in every phase and at every PSTEP (log 29); BTE.WINDOW and
BTE.EXIT at an engine boundary, and ABORT_EXIT at one with ABORT_REQ = 1, do not test completion or the abort request again (log 30);
CUR.UPDATE of a cursor below -1 is the signed maximum too (log 31); a host write of an image byte at or past IMG_LEN takes effect
(log 21); START keeps TXF and the FRESH fields besides valid, which the spec leaves at any value (log 11, U1). -/
def Obligations.OutsideTheirDomains : Prop :=
  ∀ (s : State),
    (∀ (i : BitVec 32) d, 2 ^ 26 ≤ i.toNat → exec (.encData i d) s = .refused .operandOutOfRange) ∧
    (∀ (k : Byte) c, 4 ≤ k.toNat → exec (.encInfoDig k c) s = .refused .operandOutOfRange) ∧
    (∀ (i : BitVec 32), (s.imgLen.toNat + 6) / 7 ≤ i.toNat → exec (.blkFetch i) s = .refused .operandOutOfRange) ∧
    (∀ (id : Ident) p, ∃ i d, exec (.decData id p) s = .next { s with ret := .message (.data i d) } ∧
      i.toNat = (((id &&& 0x1FFFF800#29) >>> 3) ||| (payloadByte p 0).setWidth 29).toNat ∧
      ∀ b, b ≤ 6 → blockByte d b = payloadByte p (1 + b)) ∧
    (s.receiving = false → ∀ (i : Instr), i.format = .frame93 → exec i s = .next s) ∧
    (s.op = .noOp →
      exec .lsOpen s = .next { s with op := .openOp, opstep := .tryPort } ∧
      exec .lsSend s = .next { s with op := .sendOp, opstep := .tryPort } ∧
      exec .lsRecv s = .next { s with op := .recvOp, opstep := .tryPort } ∧
      exec .lsClose s = .next { s with op := .closeOp, opstep := .tryPort } ∧
      ((s.pstep = .rxTimed ∨ s.pstep = .rxDrain) → exec .rxPoll s = .next { s with op := .recvOp, opstep := .tryPort })) ∧
    (∀ (i : Instr) (p : Phase) (q : PStep) t, i ∈ [.lsOpen, .lsSend, .lsRecv, .lsRecover, .lsClose] → s.op ≠ .noOp → exec i s = .next t →
      ∃ u, exec i { s with phase := p, pstep := q } = .next u ∧ u.op = t.op ∧ u.link = t.link ∧ u.chan = t.chan ∧
        u.script = t.script ∧ u.trace.map Event.forget = t.trace.map Event.forget) ∧
    (s.phase = .transfer → s.op = .noOp → s.pstep = .boundary →
      exec .bteExit s = .next { s with pstep := .exit } ∧
      exec .bteWindow s = .next (State.seekSlot { s with wbase := s.cursor, wsent := false, wSlot := 0 }) ∧
      (s.abortReq = true → exec .abortExit s = .next { s with op := .closeOp, opstep := .tryPort })) ∧
    (∀ (cur : Signed33) wr idx, cur.toInt < -1 →
      ∃ c, exec (.curUpdate cur wr idx) s = .next { s with ret := .cursor c } ∧ c.toInt = max cur.toInt (reportedIndex wr idx)) ∧
    (∀ (a : BitVec 32) b rest, s.phase.atRest = true → s.script = .host (.write (.image a b)) :: rest → s.imgLen.toNat ≤ a.toNat →
      ∃ t, step s = .next t ∧ t = { s with script := rest, img := t.img } ∧ t.imgByte a.toNat = b ∧
        ∀ x, x ≠ a.toNat → t.imgByte x = s.imgByte x) ∧
    (∀ t, exec .start s = .next t → t.txf = s.txf ∧ t.fresh = { s.fresh with valid := t.fresh.valid })

/-! ### The cursor reducer -/

/-- R195: CUR.UPDATE is the signed maximum of the cursor, which is at least -1, and what the report says. -/
def Obligations.CursorUpdateIsSignedMax : Prop :=
  ∀ (s : State) (cur : Signed33) (wr : Bool) (idx : BitVec 32), -1 ≤ cur.toInt →
    ∃ c, exec (.curUpdate cur wr idx) s = .next { s with ret := .cursor c } ∧ c.toInt = max cur.toInt (reportedIndex wr idx)

/-- R196 (a) to (c): after any sequence of reports the cursor is the maximum of where it was and of every report's index, so it is
non-decreasing, bounded by the reports, and independent of their order. -/
def Obligations.CursorAfterReports : Prop :=
  ∀ (cur : Signed33) (reports : List (Bool × BitVec 32)), -1 ≤ cur.toInt →
    (cursorAfter cur reports).toInt = (reports.map fun r => reportedIndex r.1 r.2).foldl max cur.toInt ∧
    cur.toInt ≤ (cursorAfter cur reports).toInt ∧
    (∀ r ∈ reports, reportedIndex r.1 r.2 ≤ (cursorAfter cur reports).toInt) ∧
    (∀ shuffled, reports.Perm shuffled → cursorAfter cur reports = cursorAfter cur shuffled)

/-! ### Host commands and the configuration check -/

/-- R232: the first check that fails, in the order of the table, gives the cause. -/
def Obligations.ConfigCheckGivesFirstFailure : Prop :=
  ∀ (s : State), exec .configCheck s = .next { s with ret := .check (configOrder.find? (configFails s)) }

/-- R257: a START whose configuration check fails ends the run with ERR = 0x30 + cause, PHASE = CFG_ERROR, and no request. What TXF
and the FRESH fields besides valid hold after START the spec leaves open (U1). -/
def Obligations.StartRefusedByConfiguration : Prop :=
  ∀ (s : State) (n : Nat) (c : ConfigCause), s.phase.atRest = true → configOrder[n]? = some c → configFails s c = true →
    (∀ m d, m < n → configOrder[m]? = some d → configFails s d = false) →
    ∃ (f : Frame) (x : Fresh), exec .start s = .next { s with
      err := 0x30#8 + BitVec.ofNat 8 (n + 1), phase := .cfgError
      abortReq := false, digestOk := false, lengthOk := false, pstep := .boundary, hsK := 0, wSlot := 0, op := .noOp
      opstep := .tryPort, fresh := { x with valid := false }, txf := f, cursor := BitVec.ofInt 33 (-1)
      lastrep := BitVec.ofInt 33 (-1), wbase := BitVec.ofInt 33 (-1), wsent := false, blockcount := 0 }

/-- R231, R292: a START whose configuration check passes begins a run with every run register at its reset value, BLOCKCOUNT that of
the image, and LS.OPEN next; the EVT_* registers and the inputs are kept. What TXF and the FRESH fields besides valid hold after
START the spec leaves open (U1). -/
def Obligations.StartBeginsFreshRun : Prop :=
  ∀ (s : State), s.phase.atRest = true → (∀ c, configFails s c = false) →
    ∃ (f : Frame) (x : Fresh), exec .start s = .next { s with
      err := 0, phase := .opening, abortReq := false, digestOk := false, lengthOk := false, pstep := .boundary, hsK := 0
      wSlot := 0, op := .noOp, opstep := .tryPort, fresh := { x with valid := false }, txf := f
      cursor := BitVec.ofInt 33 (-1), lastrep := BitVec.ofInt 33 (-1), wbase := BitVec.ofInt 33 (-1), wsent := false
      blockcount := BitVec.ofNat 27 ((s.imgLen.toNat + 6) / 7) }

/-- R234: START in a running phase changes no register. -/
def Obligations.StartIgnoredWhileRunning : Prop :=
  ∀ (s : State), s.phase.atRest = false → exec .start s = .next s

/-- R38, R238: ABORT is latched in a running phase and does nothing otherwise. -/
def Obligations.AbortLatchedWhileRunning : Prop :=
  ∀ (s : State),
    (s.phase.atRest = false → exec .abort s = .next { s with abortReq := true }) ∧
    (s.phase.atRest = true → exec .abort s = .next s)

/-! ### The link supervisor -/

/-- R152: the call, in OPENING; the first open; its success, which enters SENDING_DIGEST; its failure, which starts the recovery. -/
def Obligations.LsOpenTransitions : Prop :=
  ∀ (s : State),
    (s.phase = .opening → s.op = .noOp → exec .lsOpen s = .next { s with op := .openOp, opstep := .tryPort }) ∧
    ∀ r rest, s.phase = .opening → s.op = .openOp → s.opstep = .tryPort → s.script = .reply r :: rest →
      (∀ c, r.opened = some c →
        exec .lsOpen s = .next { s with
          chan := some c, link := .up, op := .noOp, phase := .sendingDigest, pstep := .boundary, hsK := 0, script := rest
          trace := .opened s.cfg.bus s.cfg.bitrate c :: s.trace }) ∧
      (r.opened = none →
        exec .lsOpen s = .next { s with
          opstep := .recClose, script := rest, trace := .openFailed s.cfg.bus s.cfg.bitrate :: s.trace })

/-- R153: the call, at a send; the send of TXF on CHAN; no request where no channel is held; a failed first send starts the recovery; a good
send or the one retried send returns to the phase, whatever its result. -/
def Obligations.LsSendTransitions : Prop :=
  ∀ (s : State),
    (s.phase.exchanging = true → s.pstep = .send → s.op = .noOp →
      exec .lsSend s = .next { s with op := .sendOp, opstep := .tryPort }) ∧
    (s.phase.exchanging = true → s.pstep = .send → s.op = .sendOp → s.opstep = .tryPort → s.link ≠ .up →
      exec .lsSend s = .next { s with opstep := .recClose }) ∧
    ∀ c r rest, s.pstep = .send → s.op = .sendOp → s.link = .up → s.chan = some c → s.script = .reply r :: rest →
      s.phase.exchanging = true →
      (s.opstep = .tryPort → r.sent = false →
        exec .lsSend s = .next { s with opstep := .recClose, script := rest, trace := .sent c s.txf false :: s.trace }) ∧
      (s.opstep = .tryPort ∧ r.sent = true ∨ s.opstep = .retry →
        (s.phase = .transfer →
          exec .lsSend s = .next { s with
            op := .noOp, wsent := true, pstep := .rxTimed, script := rest, trace := .sent c s.txf r.sent :: s.trace }) ∧
        (s.phase = .sendingDigest ∨ s.phase = .sendingLength →
          exec .lsSend s = .next { s with
            op := .noOp, pstep := .gap, script := rest, trace := .sent c s.txf r.sent :: s.trace }))

/-- R154, R157: RX.POLL calls a receive at RX_TIMED and at RX_DRAIN (that their number has no bound is DrainNeverEnds); no request
is made where no channel is held; `None` ends RX.POLL in the handshake; an error starts the recovery. The timeout is CFG_T_DRAIN in
a drain, else the phase's. A frame is the subject of the statements below, `None` in the engine that of SlotAfterPoll. -/
def Obligations.PollAndReceiveTransitions : Prop :=
  ∀ (s : State),
    (s.phase.exchanging = true → s.op = .noOp → (s.pstep = .rxTimed ∨ s.pstep = .rxDrain) →
      exec .rxPoll s = .next { s with op := .recvOp, opstep := .tryPort } ∧
      exec .lsRecv s = .next { s with op := .recvOp, opstep := .tryPort }) ∧
    (s.phase.exchanging = true → (s.pstep = .rxTimed ∨ s.pstep = .rxDrain) → s.op = .recvOp → s.opstep = .tryPort → s.link ≠ .up →
      exec .lsRecv s = .next { s with opstep := .recClose }) ∧
    ∀ c r rest (t : Duration), s.phase.exchanging = true → s.op = .recvOp → s.opstep = .tryPort → s.link = .up → s.chan = some c →
      s.script = .reply r :: rest →
      (s.pstep = .rxDrain ∧ t = s.cfg.tDrain ∨ s.pstep = .rxTimed ∧ s.phase = .transfer ∧ t = s.cfg.tPace ∨
        s.pstep = .rxTimed ∧ s.phase ≠ .transfer ∧ t = s.cfg.tHsRx) →
      (r.received = .err →
        exec .lsRecv s = .next { s with opstep := .recClose, script := rest, trace := .received c t .err :: s.trace }) ∧
      (r.received = .nothing → (s.phase = .sendingDigest ∨ s.phase = .sendingLength) →
        exec .lsRecv s = .next { s with
          op := .noOp, pstep := .eval, script := rest, trace := .received c t .nothing :: s.trace })

/-- R172, R193: a PROGRESS frame that the outstanding receive is answered with is latched in FRESH in the handshake and applied to
CURSOR in the engine; the drain goes on. -/
def Obligations.ReceivedProgressIsConsumed : Prop :=
  ∀ (s : State) (c : Handle) (r : Reply) (rest : List Turn) (rd rl wr : Bool) (idx : BitVec 32),
    s.receiving = true → s.chan = some c → s.script = .reply r :: rest →
      (s.phase = .sendingDigest ∨ s.phase = .sendingLength →
        exec (.progress rd rl wr idx) s = .next { s with
          fresh := { valid := true, rd := rd, rl := rl, wr := wr, idx := idx }, op := .noOp, pstep := .rxDrain
          script := rest, trace := .received c s.recvTimeout .frame :: s.trace }) ∧
      (s.phase = .transfer → ∃ cur,
        exec (.progress rd rl wr idx) s = .next { s with
          cursor := cur, op := .noOp, pstep := .rxDrain, script := rest
          trace := .received c s.recvTimeout .frame :: s.trace } ∧
        cur.toInt = max s.cursor.toInt (reportedIndex wr idx))

/-- R256: a received DATA or INFO frame, and a frame that is not FUTP or malformed, is dropped: no register but the control state
of the receive changes, and the drain goes on. -/
def Obligations.OtherFramesAreDropped : Prop :=
  ∀ (s : State) (c : Handle) (r : Reply) (rest : List Turn), s.receiving = true → s.chan = some c → s.script = .reply r :: rest →
    let dropped := { s with
      op := .noOp, pstep := .rxDrain, script := rest, trace := .received c s.recvTimeout .frame :: s.trace }
    (∀ i d, exec (.data i d) s = .next dropped) ∧ (∀ n, exec (.infoLen n) s = .next dropped) ∧
    (∀ k g, exec (.infoDig k g) s = .next dropped) ∧
    (∀ f, r.received = .frame f → (∀ rd rl wr idx, decodeMessage s.cfg.baseId f ≠ .progress rd rl wr idx) →
      exec .lsRecv s = .next dropped)

/-- R303: the drain has no bound. While the environment answers every receive with a frame, whichever it is, RX.POLL does not return:
every step receives one more, for ever, no boundary is reached and a request to abort is not honoured. An environment that repeats
an answer for ever is the model's field `loop` (log 1). -/
def Obligations.DrainNeverEnds : Prop :=
  ∀ (s : State) (c : Handle) (r : Reply) (f : RxFrame), s.receiving = true → s.chan = some c → s.script = [] →
    s.loop = [.reply r] → r.received = .frame f →
    ∀ n, ∃ t, run n s = .next t ∧ t.phase = s.phase ∧ (t.pstep = .rxTimed ∨ t.pstep = .rxDrain) ∧
      t.abortReq = s.abortReq ∧ t.link = .up ∧ t.chan = some c ∧ t.script = [] ∧ t.loop = s.loop ∧
      t.trace.length = s.trace.length + n ∧ (0 < n → ∃ d, t.trace.head? = some (.received c d .frame))

/-- R192, R198: after a slot's receives the engine goes to the next slot if its candidate is below BLOCKCOUNT, else to the report,
with the extra receive first if the window sent nothing; the extra receive leads to the report. -/
def Obligations.SlotAfterPoll : Prop :=
  ∀ (s : State) (c : Handle) (r : Reply) (rest : List Turn),
    s.phase = .transfer → s.receiving = true → s.chan = some c → s.script = .reply r :: rest → r.received = .nothing →
    let u := { s with op := .noOp, script := rest, trace := .received c s.recvTimeout .nothing :: s.trace }
    let sendable := s.wSlot.toNat + 1 < s.cfg.window.toNat ∧ s.wbase.toInt + s.wSlot.toNat + 2 < s.blockcount.toNat
    (s.wSlot.toNat < s.cfg.window.toNat → sendable →
      exec .lsRecv s = .next { u with wSlot := s.wSlot + 1, pstep := .send }) ∧
    (s.wSlot.toNat < s.cfg.window.toNat → ¬ sendable → s.wsent = true →
      exec .lsRecv s = .next { u with wSlot := s.cfg.window, pstep := .report }) ∧
    (s.wSlot.toNat < s.cfg.window.toNat → ¬ sendable → s.wsent = false →
      exec .lsRecv s = .next { u with wSlot := s.cfg.window, pstep := .rxTimed }) ∧
    (s.wSlot = s.cfg.window → exec .lsRecv s = .next { u with pstep := .report })

/-- R155: a recovery closes the held channel if there is one, brings the link up, and opens: the first two requests, inside any of
the three operations it runs in. -/
def Obligations.LsRecoverClosesAndBringsUp : Prop :=
  ∀ (s : State), s.recoverable = true →
    (s.opstep = .recClose → s.link ≠ .up →
      exec .lsRecover s = .next { s with link := .down, chan := none, opstep := .recBringup }) ∧
    ∀ r rest, s.script = .reply r :: rest →
      (∀ c, s.opstep = .recClose → s.link = .up → s.chan = some c →
        exec .lsRecover s = .next { s with
          link := .down, chan := none, opstep := .recBringup, script := rest, trace := .closed c :: s.trace }) ∧
      (s.opstep = .recBringup →
        exec .lsRecover s = .next { s with
          opstep := .recOpen, script := rest, trace := .broughtUp s.cfg.bus s.cfg.bitrate :: s.trace })

/-- R152, R254: a recovery inside LS.OPEN ends the opening: a channel enters SENDING_DIGEST, a failure ends the run in LINK_FAILED
with ERR = 0x11, LINK = CLOSED and no channel. -/
def Obligations.RecoveryInsideOpen : Prop :=
  ∀ (s : State) r rest, s.phase = .opening → s.op = .openOp → s.opstep = .recOpen → s.script = .reply r :: rest →
    (∀ c, r.opened = some c →
      exec .lsRecover s = .next { s with
        chan := some c, link := .up, op := .noOp, phase := .sendingDigest, pstep := .boundary, hsK := 0, script := rest
        trace := .opened s.cfg.bus s.cfg.bitrate c :: s.trace }) ∧
    (r.opened = none →
      exec .lsRecover s = .next { s with
        link := .closed, chan := none, op := .noOp, err := 0x11#8, phase := .linkFailed, script := rest
        trace := .openFailed s.cfg.bus s.cfg.bitrate :: s.trace })

/-- R153, R255: a recovery inside LS.SEND that gave a channel retries the same frame, TXF; one that failed returns to the phase with
LINK as the recovery left it. PHASE, HS_K, W_SLOT, WBASE are untouched. -/
def Obligations.RecoveryInsideSend : Prop :=
  ∀ (s : State) r rest, s.phase.exchanging = true → s.pstep = .send → s.op = .sendOp → s.opstep = .recOpen → s.script = .reply r :: rest →
    (∀ c, r.opened = some c →
      exec .lsRecover s = .next { s with
        chan := some c, link := .up, opstep := .retry, script := rest
        trace := .opened s.cfg.bus s.cfg.bitrate c :: s.trace }) ∧
    (r.opened = none → s.phase = .transfer →
      exec .lsRecover s = .next { s with
        op := .noOp, wsent := true, pstep := .rxTimed, script := rest
        trace := .openFailed s.cfg.bus s.cfg.bitrate :: s.trace }) ∧
    (r.opened = none → (s.phase = .sendingDigest ∨ s.phase = .sendingLength) →
      exec .lsRecover s = .next { s with
        op := .noOp, pstep := .gap, script := rest, trace := .openFailed s.cfg.bus s.cfg.bitrate :: s.trace })

/-- R154, R258: after a recovery inside LS.RECV the receive answers `None` whatever the recovery's result: the handshake evaluates,
the engine leaves the slot as SlotAfterPoll says, with neither CURSOR nor FRESH changed. -/
def Obligations.RecoveryInsideRecv : Prop :=
  ∀ (s : State) r rest, (s.pstep = .rxTimed ∨ s.pstep = .rxDrain) → s.op = .recvOp → s.opstep = .recOpen → s.script = .reply r :: rest →
    let held : State := match r.opened with
      | some c => { s with
          chan := some c, link := .up, script := rest, trace := .opened s.cfg.bus s.cfg.bitrate c :: s.trace }
      | none => { s with script := rest, trace := .openFailed s.cfg.bus s.cfg.bitrate :: s.trace }
    let sendable := s.wSlot.toNat + 1 < s.cfg.window.toNat ∧ s.wbase.toInt + s.wSlot.toNat + 2 < s.blockcount.toNat
    (s.phase = .sendingDigest ∨ s.phase = .sendingLength →
      exec .lsRecover s = .next { held with op := .noOp, pstep := .eval }) ∧
    (s.phase = .transfer →
      (s.wSlot.toNat < s.cfg.window.toNat → sendable →
        exec .lsRecover s = .next { held with op := .noOp, wSlot := s.wSlot + 1, pstep := .send }) ∧
      (s.wSlot.toNat < s.cfg.window.toNat → ¬ sendable → s.wsent = true →
        exec .lsRecover s = .next { held with op := .noOp, wSlot := s.cfg.window, pstep := .report }) ∧
      (s.wSlot.toNat < s.cfg.window.toNat → ¬ sendable → s.wsent = false →
        exec .lsRecover s = .next { held with op := .noOp, wSlot := s.cfg.window, pstep := .rxTimed }) ∧
      (s.wSlot = s.cfg.window → exec .lsRecover s = .next { held with op := .noOp, pstep := .report }))

/-- R156, R194, R238: LS.CLOSE closes the held channel if there is one and leaves LINK = CLOSED, CHAN = none, OP = NONE; it returns to
DONE from the exit of the engine, to ABORTED from a boundary, where it was called. -/
def Obligations.LsCloseReleases : Prop :=
  ∀ (s : State),
    (s.phase.exchanging = true → (s.pstep = .boundary ∨ s.phase = .transfer ∧ s.pstep = .exit) → s.op = .noOp →
      exec .lsClose s = .next { s with op := .closeOp, opstep := .tryPort }) ∧
    (s.op = .closeOp → s.opstep = .tryPort →
      let finished (u : State) : State := { u with
        link := .closed, chan := none, op := .noOp, phase := .done, pstep := .boundary }
      let aborted (u : State) : State := { u with
        link := .closed, chan := none, op := .noOp, opstep := .tryPort, phase := .aborted, pstep := .boundary }
      (s.link ≠ .up →
        (s.phase = .transfer → s.pstep = .exit → exec .lsClose s = .next (finished s)) ∧
        (s.phase.exchanging = true → s.pstep = .boundary → exec .lsClose s = .next (aborted s))) ∧
      ∀ c r rest, s.link = .up → s.chan = some c → s.script = .reply r :: rest →
        let u := { s with script := rest, trace := .closed c :: s.trace }
        (s.phase = .transfer → s.pstep = .exit → exec .lsClose s = .next (finished u)) ∧
        (s.phase.exchanging = true → s.pstep = .boundary → exec .lsClose s = .next (aborted u)))

/-- R274: while a request is outstanding and the environment answers nothing, the block waits: executing the operation changes
nothing (log 2). It does so in every phase; in one that does not select the operation, that it asks at all is the model's choice (log
29). -/
def Obligations.OutstandingRequestWaits : Prop :=
  ∀ (s : State), s.noReply →
    (s.op = .openOp → s.opstep = .tryPort → exec .lsOpen s = .next s) ∧
    (s.op = .openOp ∨ s.op = .sendOp ∨ s.op = .recvOp →
      (s.opstep = .recBringup ∨ s.opstep = .recOpen ∨ (s.opstep = .recClose ∧ s.link = .up ∧ s.chan.isSome = true) →
        exec .lsRecover s = .next s)) ∧
    (s.link = .up → s.chan.isSome = true →
      (s.op = .sendOp → (s.opstep = .tryPort ∨ s.opstep = .retry) → exec .lsSend s = .next s) ∧
      (s.op = .recvOp → s.opstep = .tryPort → exec .lsRecv s = .next s) ∧
      (s.op = .closeOp → exec .lsClose s = .next s)) ∧
    (s.op = .noOp → s.pstep = .gap →
      (s.phase = .sendingDigest → exec .hsDigestRound s = .next s) ∧
      (s.phase = .sendingLength → exec .hsLengthRound s = .next s))

/-- R153, §8 of the source: a failed send followed by a good recovery makes exactly one retried send of the same frame before the
phase goes on: five requests, five answers, five steps. -/
def Obligations.FailedSendIsRetriedOnce : Prop :=
  ∀ (s : State) (c d : Handle) (r1 r2 r3 r4 r5 : Reply) (rest : List Turn),
    s.phase.exchanging = true → s.pstep = .send → s.op = .sendOp → s.opstep = .tryPort → s.link = .up → s.chan = some c →
    s.script = [.reply r1, .reply r2, .reply r3, .reply r4, .reply r5] ++ rest →
    r1.sent = false → r4.opened = some d →
      ∃ t, run 5 s = .next t ∧ t.op = .noOp ∧ t.link = .up ∧ t.chan = some d ∧ t.txf = s.txf ∧ t.err = s.err ∧
        t.phase = s.phase ∧ t.script = rest ∧
        t.trace = [.sent d s.txf r5.sent, .opened s.cfg.bus s.cfg.bitrate d, .broughtUp s.cfg.bus s.cfg.bitrate, .closed c,
          .sent c s.txf false] ++ s.trace

/-! ### The handshake -/

/-- R171, R174, R176: the boundary, the sends, the gaps and the receives of a digest round and of a length round. At a receive the
round's line is RX.POLL's call; the step itself selects RX.POLL there (log 9). -/
def Obligations.HandshakeRoundTransitions : Prop :=
  ∀ (s : State), s.op = .noOp →
    (s.phase = .sendingDigest →
      (s.pstep = .boundary → s.abortReq = false → exec .hsDigestRound s = .next { s with hsK := 0, pstep := .send }) ∧
      (s.pstep = .boundary → s.abortReq = true →
        exec .hsDigestRound s = .next { s with op := .closeOp, opstep := .tryPort }) ∧
      (∀ k : Fin 4, s.pstep = .send → s.hsK.toNat = k.val →
        exec .hsDigestRound s = .next { s with
          txf := encodeInfoDig s.cfg.baseId (BitVec.ofNat 8 k.val) (s.digest.at k), op := .sendOp, opstep := .tryPort }) ∧
      (∀ r rest, s.pstep = .gap → s.script = .reply r :: rest →
        let u := { s with script := rest, trace := .delayed s.cfg.tDigestGap :: s.trace }
        (s.hsK.toNat < 3 → exec .hsDigestRound s = .next { u with hsK := s.hsK + 1, pstep := .send }) ∧
        (s.hsK.toNat = 3 →
          exec .hsDigestRound s = .next { u with hsK := 4, fresh := { s.fresh with valid := false }, pstep := .rxTimed })) ∧
      ((s.pstep = .rxTimed ∨ s.pstep = .rxDrain) →
        exec .hsDigestRound s = .next { s with op := .recvOp, opstep := .tryPort })) ∧
    (s.phase = .sendingLength →
      (s.pstep = .boundary → s.abortReq = false → exec .hsLengthRound s = .next { s with pstep := .send }) ∧
      (s.pstep = .boundary → s.abortReq = true →
        exec .hsLengthRound s = .next { s with op := .closeOp, opstep := .tryPort }) ∧
      (s.pstep = .send →
        exec .hsLengthRound s = .next { s with
          txf := encodeInfoLen s.cfg.baseId s.imgLen, op := .sendOp, opstep := .tryPort }) ∧
      (∀ r rest, s.pstep = .gap → s.script = .reply r :: rest →
        exec .hsLengthRound s = .next { s with
          fresh := { s.fresh with valid := false }, pstep := .rxTimed, script := rest
          trace := .delayed s.cfg.tLengthGap :: s.trace }) ∧
      ((s.pstep = .rxTimed ∨ s.pstep = .rxDrain) →
        exec .hsLengthRound s = .next { s with op := .recvOp, opstep := .tryPort }))

/-- R171, R13: a digest round with a healthy link makes the eight atomic steps send, Delay, four times, with the chunks in index
order, one in each step, and then receives with FRESH invalid. -/
def Obligations.DigestRoundSendsFourChunks : Prop :=
  ∀ (s : State) (c : Handle) (r1 r2 r3 r4 r5 r6 r7 r8 : Reply) (rest : List Turn),
    s.phase = .sendingDigest → s.pstep = .boundary → s.op = .noOp → s.abortReq = false → s.link = .up → s.chan = some c →
    s.script = [.reply r1, .reply r2, .reply r3, .reply r4, .reply r5, .reply r6, .reply r7, .reply r8] ++ rest →
    r1.sent = true → r3.sent = true → r5.sent = true → r7.sent = true →
      let chunk (k : Fin 4) : Event := .sent c (encodeInfoDig s.cfg.baseId (BitVec.ofNat 8 k.val) (s.digest.at k)) true
      let gap : Event := .delayed s.cfg.tDigestGap
      ∃ t, run 8 s = .next t ∧ t.phase = .sendingDigest ∧ t.pstep = .rxTimed ∧ t.op = .noOp ∧ t.hsK = 4 ∧
        t.fresh.valid = false ∧ t.script = rest ∧
        t.trace = [gap, chunk 3, gap, chunk 2, gap, chunk 1, gap, chunk 0] ++ s.trace

/-- R173, R175: the evaluation of the freshest PROGRESS, in SENDING_DIGEST by `rd` alone, in SENDING_LENGTH by `rl` alone, and
DIGEST_CONFIRMED. -/
def Obligations.HandshakeEvaluations : Prop :=
  ∀ (s : State), s.op = .noOp →
    (s.phase = .sendingDigest → s.pstep = .eval →
      (s.fresh.valid = true ∧ s.fresh.rd = true →
        exec .hsEvalDigest s = .next { s with digestOk := true, phase := .digestConfirmed }) ∧
      (¬ (s.fresh.valid = true ∧ s.fresh.rd = true) → exec .hsEvalDigest s = .next { s with pstep := .boundary })) ∧
    (s.phase = .digestConfirmed → exec .hsEvalDigest s = .next { s with phase := .sendingLength, pstep := .boundary }) ∧
    (s.phase = .sendingLength → s.pstep = .eval →
      (s.fresh.valid = true ∧ s.fresh.rl = true →
        exec .hsEvalLength s = .next { s with lengthOk := true, phase := .lengthConfirmed }) ∧
      (¬ (s.fresh.valid = true ∧ s.fresh.rl = true) → exec .hsEvalLength s = .next { s with pstep := .boundary }))

/-! ### The engine and the reporter -/

/-- R190, R223: the entry of the engine, with the event at 0 bytes. -/
def Obligations.EngineEntry : Prop :=
  ∀ (s : State), s.phase = .lengthConfirmed → s.op = .noOp →
    exec .bteEnter s = .next { s with
      cursor := BitVec.ofInt 33 (-1), lastrep := BitVec.ofInt 33 (-1), wbase := BitVec.ofInt 33 (-1), wsent := false
      wSlot := 0, phase := .transfer, pstep := .boundary, evt := { delta := 0, confirmed := 0, total := s.imgLen }
      trace := .emitted { delta := 0, confirmed := 0, total := s.imgLen } :: s.trace }

/-- R191, R266 (a): at an engine boundary the completion test comes first, then the abort request, then the window: the control state
selects that operation, the internal computation begins with it, and so does a step of the block (but for time alone, which ends
with the computation, log 3). -/
def Obligations.EngineBoundaryOrder : Prop :=
  ∀ (s : State), s.phase = .transfer → s.op = .noOp → s.pstep = .boundary →
    let i : Instr :=
      if s.cursor.toInt = (s.blockcount.toNat : Int) - 1 then .bteExit
      else if s.abortReq = true then .abortExit
      else .bteWindow
    s.computing = true ∧ decode s.cfg.baseId (.control s.controlCode) = .ok i ∧
      ∀ t, exec i s = .next t →
        s.settle settleSteps = t.settle settleSteps ∧ (s.blockNext → (∀ rest, s.script ≠ .tick :: rest) → step s = step t)

/-- R192: at a boundary that R191 gives to the window, it is latched and the first slot taken if its candidate is below BLOCKCOUNT; at a send the
candidate's DATA frame, ENC.DATA of BLK.FETCH, is put in TXF and LS.SEND called; at a receive the window's line is RX.POLL's call (the
step itself selects RX.POLL there, log 9). In a state that fits R192 the first candidate is sendable unless the cursor is past the
last block (R197). -/
def Obligations.WindowTransitions : Prop :=
  ∀ (s : State), s.phase = .transfer → s.op = .noOp →
    (s.pstep = .boundary → s.cfg.window ≠ 0 → s.cursor.toInt ≠ (s.blockcount.toNat : Int) - 1 → s.abortReq = false →
      (s.cursor.toInt + 1 < s.blockcount.toNat →
        exec .bteWindow s = .next { s with wbase := s.cursor, wsent := false, wSlot := 0, pstep := .send }) ∧
      (s.blockcount.toNat ≤ s.cursor.toInt + 1 →
        exec .bteWindow s = .next { s with wbase := s.cursor, wsent := false, wSlot := s.cfg.window, pstep := .rxTimed })) ∧
    (∀ (i : BitVec 32) (d : Block) (f : Frame), s.pstep = .send → (i.toNat : Int) = s.wbase.toInt + s.wSlot.toNat + 1 →
      exec (.blkFetch i) s = .next { s with ret := .block d } → exec (.encData i d) s = .next { s with ret := .frame f } →
      exec .bteWindow s = .next { s with txf := f, op := .sendOp, opstep := .tryPort }) ∧
    ((s.pstep = .rxTimed ∨ s.pstep = .rxDrain) → exec .bteWindow s = .next { s with op := .recvOp, opstep := .tryPort })

/-- R221, R222, R224: PR.REPORT emits when CURSOR - LASTREP >= G, PR.FLUSH when CURSOR > LASTREP, the counts in bytes without
wrap, and LASTREP follows; else neither emits. -/
def Obligations.ReporterEvents : Prop :=
  ∀ (s : State), s.phase = .transfer → s.op = .noOp → -1 ≤ s.lastrep.toInt → s.lastrep.toInt ≤ s.cursor.toInt →
    ∃ e : ProgressEvent, (e.delta.toNat : Int) = (s.cursor.toInt - s.lastrep.toInt) * 7 ∧
      (e.confirmed.toNat : Int) = (s.cursor.toInt + 1) * 7 ∧ e.total = s.imgLen ∧
      (s.pstep = .report →
        ((s.cfg.gran.toNat : Int) ≤ s.cursor.toInt - s.lastrep.toInt →
          exec .prReport s = .next { s with
            evt := e, trace := .emitted e :: s.trace, lastrep := s.cursor, pstep := .boundary }) ∧
        (s.cursor.toInt - s.lastrep.toInt < (s.cfg.gran.toNat : Int) →
          exec .prReport s = .next { s with pstep := .boundary })) ∧
      (s.pstep = .exit →
        (s.lastrep.toInt < s.cursor.toInt →
          exec .prFlush s = .next { s with evt := e, trace := .emitted e :: s.trace, lastrep := s.cursor }) ∧
        (s.lastrep.toInt = s.cursor.toInt → exec .prFlush s = .next s))

/-- R194, R238: the exit at a completed boundary, then, with nothing left to flush, LS.CLOSE; the abort exit calls LS.CLOSE at any
boundary with ABORT_REQ = 1 that is not a completed one of the engine. Elsewhere: OutsideTheirDomains (log 30). -/
def Obligations.ExitTransitions : Prop :=
  ∀ (s : State), s.op = .noOp →
    (s.phase = .transfer → s.pstep = .boundary → s.cursor.toInt = (s.blockcount.toNat : Int) - 1 → exec .bteExit s = .next { s with pstep := .exit }) ∧
    (s.phase = .transfer → s.pstep = .exit → s.cursor.toInt ≤ s.lastrep.toInt →
      exec .bteExit s = .next { s with op := .closeOp, opstep := .tryPort }) ∧
    (s.phase.exchanging = true → s.pstep = .boundary → s.abortReq = true →
      (s.phase = .transfer → s.cursor.toInt ≠ (s.blockcount.toNat : Int) - 1) →
      exec .abortExit s = .next { s with op := .closeOp, opstep := .tryPort })

/-- R197: in overrun the engine goes on for ever: a step without a reset stays in the loop, past the last block, and never exits, or
the run is aborted. -/
def Obligations.OverrunPersists : Prop :=
  ∀ (s t : State), s.Inv → s.phase = .transfer → s.pstep ≠ .exit → (s.blockcount.toNat : Int) ≤ s.cursor.toInt → s.noReset →
    step s = .next t →
      t.phase = .transfer ∧ t.pstep ≠ .exit ∧ t.blockcount = s.blockcount ∧ (t.blockcount.toNat : Int) ≤ t.cursor.toInt ∨
      t.phase = .aborted

/-! ### Rules of the whole machine -/

/-- The invariant holds after reset. -/
def Obligations.InvHoldsAtReset : Prop := State.reset.Inv

/-- Every step keeps the invariant: the image memory's canonical form, the ranges of CURSOR, LASTREP and WBASE (R29 to R31), the
channel discipline (R158 (a), (b)), LINK = UP exactly when CHAN is held (R39), no channel outside a run (R240), a checked
configuration and the image's BLOCKCOUNT in a run (R231, R232), and control states the block takes (R26). -/
def Obligations.InvPreserved : Prop := ∀ (s t : State), s.Inv → step s = .next t → t.Inv

/-- From a state of the invariant, with no host access to what the spec does not give the host, the machine goes on: no port
answer and no received frame stops it. -/
def Obligations.NoStopFromInv : Prop := ∀ (s : State), s.Inv → s.legalTurn = true → goesOn (step s)

/-- R236: PHASE stays or moves along an arrow of the phase graph, in every state, at every operation that is fetched; a step without a
reset moves it along at most three arrows one after the other, and at rest or in OPENING along at most one. -/
def Obligations.PhaseMovesAlongArrows : Prop :=
  ∀ (s t : State),
    (∀ i : Instr, decode s.cfg.baseId (.control s.controlCode) = .ok i ∨ i.format = .hostCommand ∨ i.format = .frame93 →
      exec i s = .next t → t.phase = s.phase ∨ Phase.arrow s.phase t.phase = true) ∧
    (s.noReset → step s = .next t → phasePath s.phase t.phase)

/-- R29: in a run, outside the engine's entry, CURSOR is changed only in TRANSFER, by a PROGRESS frame that answers the receive
outstanding, and never lowered. `u` is the block at the end of its internal computation, which changes CURSOR nowhere. -/
def Obligations.CursorChangedOnlyByReports : Prop :=
  ∀ (s t u : State), s.phase.atRest = false → s.noReset → s.drawTurn.settle settleSteps = .next u → u.phase ≠ .lengthConfirmed →
    step s = .next t →
    u.cursor = s.cursor ∧ s.cursor.toInt ≤ t.cursor.toInt ∧
    (t.cursor ≠ s.cursor → u.phase = .transfer ∧ u.receiving = true ∧
      ∃ r rest f rd rl wr idx, u.script = .reply r :: rest ∧ r.received = .frame f ∧
        decodeMessage s.cfg.baseId f = .progress rd rl wr idx ∧ t.cursor.toInt = reportedIndex wr idx)

/-- R61: no operation of the block writes the image memory, the digest registers or the configuration registers. -/
def Obligations.NoOperationWritesInputs : Prop :=
  ∀ (i : Instr) (s t : State), exec i s = .next t →
    (∀ a, t.imgByte a = s.imgByte a) ∧ t.img = s.img ∧ t.digest = s.digest ∧ t.cfg = s.cfg ∧ t.imgLen = s.imgLen

/-- R28: a host write takes effect in IDLE and in a terminal phase and is ignored in a running phase; the value written reads back;
every other image byte is as before; a write of CFG_BASE_ID or CFG_BITRATE sets its CFG_PRESENT bit (R27). An image byte is one
below IMG_LEN (R34); beyond it the write is the model's choice (log 21, OutsideTheirDomains). -/
def Obligations.HostWritesOutsideARun : Prop :=
  ∀ (s : State) (w : HostWrite) (rest : List Turn), s.script = .host (.write w) :: rest →
    (s.phase.atRest = false → step s = .next { s with script := rest }) ∧
    (s.phase.atRest = true → ∃ t, step s = .next t ∧
      t = { s with script := rest, cfg := t.cfg, imgLen := t.imgLen, digest := t.digest, img := t.img } ∧
      match w with
      | .baseId v => t = { s with script := rest, cfg := { s.cfg with baseId := v, presentBase := true } }
      | .bitrate v => t = { s with script := rest, cfg := { s.cfg with bitrate := v, presentRate := true } }
      | .bus b => t = { s with script := rest, cfg := { s.cfg with bus := b } }
      | .window v => t = { s with script := rest, cfg := { s.cfg with window := v } }
      | .gran v => t = { s with script := rest, cfg := { s.cfg with gran := v } }
      | .tDigestGap d => t = { s with script := rest, cfg := { s.cfg with tDigestGap := d } }
      | .tLengthGap d => t = { s with script := rest, cfg := { s.cfg with tLengthGap := d } }
      | .tHsRx d => t = { s with script := rest, cfg := { s.cfg with tHsRx := d } }
      | .tPace d => t = { s with script := rest, cfg := { s.cfg with tPace := d } }
      | .tDrain d => t = { s with script := rest, cfg := { s.cfg with tDrain := d } }
      | .imgLen v => t = { s with script := rest, imgLen := v }
      | .digest k v => t.cfg = s.cfg ∧ t.imgLen = s.imgLen ∧ t.img = s.img ∧ t.digest.at k = v ∧
          ∀ j, j ≠ k → t.digest.at j = s.digest.at j
      | .image a b => a.toNat < s.imgLen.toNat →
          t.cfg = s.cfg ∧ t.imgLen = s.imgLen ∧ t.digest = s.digest ∧ t.imgByte a.toNat = b ∧
          ∀ x, x ≠ a.toNat → t.imgByte x = s.imgByte x)

/-- R28, R40, U12: a host read returns the current value and has no side effect on the block (the value goes to the record). The
numbers 0x00 to 0x17 are the registers of R27, R33 and R40 with their values, STATUS with PHASE, LINK, DIGEST_OK, LENGTH_OK and
ABORT_REQ in their places and in the codes of R24 and R39. THE MODEL'S CHOICES: the registers without a number are read by name, PSTEP,
OP and OPSTEP in the codes of R26 and FRESH and TXF in the model's layout (log 23), a signed register is read as its two's-complement
pattern (log 23), a read past the image's end faults (log 21) and a number the spec does not define is refused (log 22). -/
def Obligations.HostReadsHaveNoSideEffect : Prop :=
  ∀ (s : State) (rest : List Turn),
    (∀ r, s.script = .host (.read r) :: rest →
      step s = .next { s with script := rest, trace := .hostRead r (s.hostValue r) :: s.trace }) ∧
    (∀ (a : BitVec 32), s.script = .host (.readImage a) :: rest →
      step s = if a.toNat < s.imgLen.toNat
        then .next { s with script := rest, trace := .hostReadImage a (s.imgByte a.toNat) :: s.trace }
        else .fault (.noSuchImageAddress a.toNat)) ∧
    (∀ n r, s.script = .host (.readNumber n) :: rest → HostReg.ofNumber n = some r →
      step s = .next { s with script := rest, trace := .hostRead r (s.hostValue r) :: s.trace }) ∧
    (∀ n, s.script = .host (.readNumber n) :: rest → 0x18 ≤ n.toNat → step s = .refused (.noSuchRegister n.toNat)) ∧
    (let status := s.phase.code.toNat + 16 * s.link.code.toNat + 64 * s.digestOk.toNat + 128 * s.lengthOk.toNat
        + 256 * s.abortReq.toNat
     let numbered : List (HostReg × HostValue) :=
      [(.cmd, .word 0), (.status, .word status), (.err, .word s.err.toNat), (.cfgBaseId, .word s.cfg.baseId.toNat),
        (.cfgBitrate, .word s.cfg.bitrate.toNat), (.cfgBus, .bus s.cfg.bus), (.cfgWindow, .word s.cfg.window.toNat),
        (.cfgGran, .word s.cfg.gran.toNat), (.cfgTDigestGap, .duration s.cfg.tDigestGap),
        (.cfgTLengthGap, .duration s.cfg.tLengthGap), (.cfgTHsRx, .duration s.cfg.tHsRx), (.cfgTPace, .duration s.cfg.tPace),
        (.cfgTDrain, .duration s.cfg.tDrain), (.imgLen, .word s.imgLen.toNat), (.digest 0, .word s.digest.c0.toNat),
        (.digest 1, .word s.digest.c1.toNat), (.digest 2, .word s.digest.c2.toNat), (.digest 3, .word s.digest.c3.toNat),
        (.cursor, .word s.cursor.toNat), (.lastrep, .word s.lastrep.toNat), (.blockcount, .word s.blockcount.toNat),
        (.evtDelta, .word s.evt.delta.toNat), (.evtConfirmed, .word s.evt.confirmed.toNat), (.evtTotal, .word s.evt.total.toNat)]
     numbered.length = 0x18 ∧
      ∀ (n : Byte) r v, numbered[n.toNat]? = some (r, v) → HostReg.ofNumber n = some r ∧ s.hostValue r = v) ∧
    (s.hostValue .cfgPresent = .word (s.cfg.presentBase.toNat + 2 * s.cfg.presentRate.toNat) ∧
      s.hostValue .wbase = .word s.wbase.toNat ∧ s.hostValue .wsent = .word s.wsent.toNat ∧
      s.hostValue .fresh = .word (s.fresh.idx.toNat + 2 ^ 32 * s.fresh.wr.toNat + 2 ^ 33 * s.fresh.rl.toNat
        + 2 ^ 34 * s.fresh.rd.toNat + 2 ^ 35 * s.fresh.valid.toNat) ∧
      s.hostValue .txf = .word (s.txf.id.toNat * 2 ^ 64 + s.txf.payload.toNat) ∧
      s.hostValue .pstep = .word s.pstep.code.toNat ∧ s.hostValue .hsK = .word s.hsK.toNat ∧
      s.hostValue .wSlot = .word s.wSlot.toNat ∧ s.hostValue .op = .word s.op.code.toNat ∧
      s.hostValue .opstep = .word s.opstep.code.toNat ∧ s.hostValue .chan = .channel s.chan) ∧
    [Phase.idle, .opening, .sendingDigest, .digestConfirmed, .sendingLength, .lengthConfirmed, .transfer, .done, .aborted, .cfgError,
      .linkFailed].map Phase.code = (List.range 11).map (BitVec.ofNat 4) ∧
    [Link.closed, .up, .down].map Link.code = [0, 1, 2] ∧
    [PStep.boundary, .send, .gap, .rxTimed, .rxDrain, .eval, .report, .exit].map PStep.code = (List.range 8).map (BitVec.ofNat 3) ∧
    [Op.noOp, .openOp, .sendOp, .recvOp, .closeOp].map Op.code = (List.range 5).map (BitVec.ofNat 3) ∧
    [OpStep.tryPort, .recClose, .recBringup, .recOpen, .retry].map OpStep.code = (List.range 5).map (BitVec.ofNat 3)

/-- R252: ERR is written only where a run begins or ends: START clears it or records a configuration cause, a failed opening
records 0x11. -/
def Obligations.ErrWrittenOnlyAtRunEnds : Prop :=
  ∀ (i : Instr) (s t : State), exec i s = .next t → t.err ≠ s.err →
    i = .start ∧ t.phase = .opening ∧ t.err = 0 ∨
    i = .start ∧ t.phase = .cfgError ∧ 0x31 ≤ t.err.toNat ∧ t.err.toNat ≤ 0x37 ∨
    i = .lsRecover ∧ t.phase = .linkFailed ∧ t.err = 0x11#8

/-- R37: DIGEST_OK and LENGTH_OK are written only by their two transitions and cleared only by START (and by reset). -/
def Obligations.FlagsWrittenOnlyByTransitions : Prop :=
  ∀ (i : Instr) (s t : State), exec i s = .next t →
    (t.digestOk ≠ s.digestOk →
      t.digestOk = true ∧ s.phase = .sendingDigest ∧ t.phase = .digestConfirmed ∨ t.digestOk = false ∧ i = .start) ∧
    (t.lengthOk ≠ s.lengthOk →
      t.lengthOk = true ∧ s.phase = .sendingLength ∧ t.phase = .lengthConfirmed ∨ t.lengthOk = false ∧ i = .start)

/-- R36, R127: while a send is in progress TXF is the frame the phase's encoder made of the registers, so that a retry sends the same
frame; every step keeps it so. -/
def Obligations.SentFrameStaysEncoded : Prop :=
  ∀ (s t : State), s.Inv → s.txfSettled → step s = .next t → t.txfSettled

/-- R225, R201: in the engine the last event's count and the sum of all deltas are the bytes up to LASTREP, and at DONE they are seven
times BLOCKCOUNT; every step keeps it so. -/
def Obligations.EventsAccountForBlocks : Prop :=
  ∀ (s t : State), s.Inv → s.eventsSettled → step s = .next t → t.eventsSettled

/-- R270, R310: no outcome depends on a duration: two states that differ in duration registers alone (and in the durations of the
record) step to outcomes that differ in durations alone. -/
def Obligations.DurationsDecideNothing : Prop :=
  ∀ (s t : State), s.forgetDurations = t.forgetDurations → sameButDurations (step s) (step t)

end
end

