-- ==== Sys2Proof/Laws/State.lean ====
section
/-!
SUPPORT. One lemma per field for each update of the state that has a name: what the field holds after it.
-/
namespace Sys2Proof.Machine

/-! ### pop -/

@[simp] theorem State.pop_phase (s : State) : (s.pop).phase = s.phase := rfl
@[simp] theorem State.pop_pstep (s : State) : (s.pop).pstep = s.pstep := rfl
@[simp] theorem State.pop_hsK (s : State) : (s.pop).hsK = s.hsK := rfl
@[simp] theorem State.pop_wSlot (s : State) : (s.pop).wSlot = s.wSlot := rfl
@[simp] theorem State.pop_op (s : State) : (s.pop).op = s.op := rfl
@[simp] theorem State.pop_opstep (s : State) : (s.pop).opstep = s.opstep := rfl
@[simp] theorem State.pop_cursor (s : State) : (s.pop).cursor = s.cursor := rfl
@[simp] theorem State.pop_lastrep (s : State) : (s.pop).lastrep = s.lastrep := rfl
@[simp] theorem State.pop_wbase (s : State) : (s.pop).wbase = s.wbase := rfl
@[simp] theorem State.pop_wsent (s : State) : (s.pop).wsent = s.wsent := rfl
@[simp] theorem State.pop_blockcount (s : State) : (s.pop).blockcount = s.blockcount := rfl
@[simp] theorem State.pop_fresh (s : State) : (s.pop).fresh = s.fresh := rfl
@[simp] theorem State.pop_txf (s : State) : (s.pop).txf = s.txf := rfl
@[simp] theorem State.pop_digestOk (s : State) : (s.pop).digestOk = s.digestOk := rfl
@[simp] theorem State.pop_lengthOk (s : State) : (s.pop).lengthOk = s.lengthOk := rfl
@[simp] theorem State.pop_abortReq (s : State) : (s.pop).abortReq = s.abortReq := rfl
@[simp] theorem State.pop_link (s : State) : (s.pop).link = s.link := rfl
@[simp] theorem State.pop_chan (s : State) : (s.pop).chan = s.chan := rfl
@[simp] theorem State.pop_err (s : State) : (s.pop).err = s.err := rfl
@[simp] theorem State.pop_evt (s : State) : (s.pop).evt = s.evt := rfl
@[simp] theorem State.pop_cfg (s : State) : (s.pop).cfg = s.cfg := rfl
@[simp] theorem State.pop_imgLen (s : State) : (s.pop).imgLen = s.imgLen := rfl
@[simp] theorem State.pop_digest (s : State) : (s.pop).digest = s.digest := rfl
@[simp] theorem State.pop_img (s : State) : (s.pop).img = s.img := rfl
@[simp] theorem State.pop_script (s : State) : (s.pop).script = s.script.tail := rfl
@[simp] theorem State.pop_loop (s : State) : (s.pop).loop = s.loop := rfl
@[simp] theorem State.pop_asked (s : State) : (s.pop).asked = s.asked := rfl
@[simp] theorem State.pop_trace (s : State) : (s.pop).trace = s.trace := rfl
@[simp] theorem State.pop_ret (s : State) : (s.pop).ret = s.ret := rfl
@[simp] theorem State.pop_epoch (s : State) : (s.pop).epoch = s.epoch := rfl

/-! ### log -/

@[simp] theorem State.log_phase (e : Event) (s : State) : (s.log e).phase = s.phase := rfl
@[simp] theorem State.log_pstep (e : Event) (s : State) : (s.log e).pstep = s.pstep := rfl
@[simp] theorem State.log_hsK (e : Event) (s : State) : (s.log e).hsK = s.hsK := rfl
@[simp] theorem State.log_wSlot (e : Event) (s : State) : (s.log e).wSlot = s.wSlot := rfl
@[simp] theorem State.log_op (e : Event) (s : State) : (s.log e).op = s.op := rfl
@[simp] theorem State.log_opstep (e : Event) (s : State) : (s.log e).opstep = s.opstep := rfl
@[simp] theorem State.log_cursor (e : Event) (s : State) : (s.log e).cursor = s.cursor := rfl
@[simp] theorem State.log_lastrep (e : Event) (s : State) : (s.log e).lastrep = s.lastrep := rfl
@[simp] theorem State.log_wbase (e : Event) (s : State) : (s.log e).wbase = s.wbase := rfl
@[simp] theorem State.log_wsent (e : Event) (s : State) : (s.log e).wsent = s.wsent := rfl
@[simp] theorem State.log_blockcount (e : Event) (s : State) : (s.log e).blockcount = s.blockcount := rfl
@[simp] theorem State.log_fresh (e : Event) (s : State) : (s.log e).fresh = s.fresh := rfl
@[simp] theorem State.log_txf (e : Event) (s : State) : (s.log e).txf = s.txf := rfl
@[simp] theorem State.log_digestOk (e : Event) (s : State) : (s.log e).digestOk = s.digestOk := rfl
@[simp] theorem State.log_lengthOk (e : Event) (s : State) : (s.log e).lengthOk = s.lengthOk := rfl
@[simp] theorem State.log_abortReq (e : Event) (s : State) : (s.log e).abortReq = s.abortReq := rfl
@[simp] theorem State.log_link (e : Event) (s : State) : (s.log e).link = s.link := rfl
@[simp] theorem State.log_chan (e : Event) (s : State) : (s.log e).chan = s.chan := rfl
@[simp] theorem State.log_err (e : Event) (s : State) : (s.log e).err = s.err := rfl
@[simp] theorem State.log_evt (e : Event) (s : State) : (s.log e).evt = s.evt := rfl
@[simp] theorem State.log_cfg (e : Event) (s : State) : (s.log e).cfg = s.cfg := rfl
@[simp] theorem State.log_imgLen (e : Event) (s : State) : (s.log e).imgLen = s.imgLen := rfl
@[simp] theorem State.log_digest (e : Event) (s : State) : (s.log e).digest = s.digest := rfl
@[simp] theorem State.log_img (e : Event) (s : State) : (s.log e).img = s.img := rfl
@[simp] theorem State.log_script (e : Event) (s : State) : (s.log e).script = s.script := rfl
@[simp] theorem State.log_loop (e : Event) (s : State) : (s.log e).loop = s.loop := rfl
@[simp] theorem State.log_asked (e : Event) (s : State) : (s.log e).asked = s.asked := rfl
@[simp] theorem State.log_trace (e : Event) (s : State) : (s.log e).trace = e :: s.trace := rfl
@[simp] theorem State.log_ret (e : Event) (s : State) : (s.log e).ret = s.ret := rfl
@[simp] theorem State.log_epoch (e : Event) (s : State) : (s.log e).epoch = s.epoch := rfl

/-! ### call -/

@[simp] theorem State.call_phase (o : Op) (s : State) : (s.call o).phase = s.phase := rfl
@[simp] theorem State.call_pstep (o : Op) (s : State) : (s.call o).pstep = s.pstep := rfl
@[simp] theorem State.call_hsK (o : Op) (s : State) : (s.call o).hsK = s.hsK := rfl
@[simp] theorem State.call_wSlot (o : Op) (s : State) : (s.call o).wSlot = s.wSlot := rfl
@[simp] theorem State.call_op (o : Op) (s : State) : (s.call o).op = o := rfl
@[simp] theorem State.call_opstep (o : Op) (s : State) : (s.call o).opstep = .tryPort := rfl
@[simp] theorem State.call_cursor (o : Op) (s : State) : (s.call o).cursor = s.cursor := rfl
@[simp] theorem State.call_lastrep (o : Op) (s : State) : (s.call o).lastrep = s.lastrep := rfl
@[simp] theorem State.call_wbase (o : Op) (s : State) : (s.call o).wbase = s.wbase := rfl
@[simp] theorem State.call_wsent (o : Op) (s : State) : (s.call o).wsent = s.wsent := rfl
@[simp] theorem State.call_blockcount (o : Op) (s : State) : (s.call o).blockcount = s.blockcount := rfl
@[simp] theorem State.call_fresh (o : Op) (s : State) : (s.call o).fresh = s.fresh := rfl
@[simp] theorem State.call_txf (o : Op) (s : State) : (s.call o).txf = s.txf := rfl
@[simp] theorem State.call_digestOk (o : Op) (s : State) : (s.call o).digestOk = s.digestOk := rfl
@[simp] theorem State.call_lengthOk (o : Op) (s : State) : (s.call o).lengthOk = s.lengthOk := rfl
@[simp] theorem State.call_abortReq (o : Op) (s : State) : (s.call o).abortReq = s.abortReq := rfl
@[simp] theorem State.call_link (o : Op) (s : State) : (s.call o).link = s.link := rfl
@[simp] theorem State.call_chan (o : Op) (s : State) : (s.call o).chan = s.chan := rfl
@[simp] theorem State.call_err (o : Op) (s : State) : (s.call o).err = s.err := rfl
@[simp] theorem State.call_evt (o : Op) (s : State) : (s.call o).evt = s.evt := rfl
@[simp] theorem State.call_cfg (o : Op) (s : State) : (s.call o).cfg = s.cfg := rfl
@[simp] theorem State.call_imgLen (o : Op) (s : State) : (s.call o).imgLen = s.imgLen := rfl
@[simp] theorem State.call_digest (o : Op) (s : State) : (s.call o).digest = s.digest := rfl
@[simp] theorem State.call_img (o : Op) (s : State) : (s.call o).img = s.img := rfl
@[simp] theorem State.call_script (o : Op) (s : State) : (s.call o).script = s.script := rfl
@[simp] theorem State.call_loop (o : Op) (s : State) : (s.call o).loop = s.loop := rfl
@[simp] theorem State.call_asked (o : Op) (s : State) : (s.call o).asked = s.asked := rfl
@[simp] theorem State.call_trace (o : Op) (s : State) : (s.call o).trace = s.trace := rfl
@[simp] theorem State.call_ret (o : Op) (s : State) : (s.call o).ret = s.ret := rfl
@[simp] theorem State.call_epoch (o : Op) (s : State) : (s.call o).epoch = s.epoch := rfl

/-! ### emit -/

@[simp] theorem State.emit_phase (e : ProgressEvent) (s : State) : (s.emit e).phase = s.phase := rfl
@[simp] theorem State.emit_pstep (e : ProgressEvent) (s : State) : (s.emit e).pstep = s.pstep := rfl
@[simp] theorem State.emit_hsK (e : ProgressEvent) (s : State) : (s.emit e).hsK = s.hsK := rfl
@[simp] theorem State.emit_wSlot (e : ProgressEvent) (s : State) : (s.emit e).wSlot = s.wSlot := rfl
@[simp] theorem State.emit_op (e : ProgressEvent) (s : State) : (s.emit e).op = s.op := rfl
@[simp] theorem State.emit_opstep (e : ProgressEvent) (s : State) : (s.emit e).opstep = s.opstep := rfl
@[simp] theorem State.emit_cursor (e : ProgressEvent) (s : State) : (s.emit e).cursor = s.cursor := rfl
@[simp] theorem State.emit_lastrep (e : ProgressEvent) (s : State) : (s.emit e).lastrep = s.lastrep := rfl
@[simp] theorem State.emit_wbase (e : ProgressEvent) (s : State) : (s.emit e).wbase = s.wbase := rfl
@[simp] theorem State.emit_wsent (e : ProgressEvent) (s : State) : (s.emit e).wsent = s.wsent := rfl
@[simp] theorem State.emit_blockcount (e : ProgressEvent) (s : State) : (s.emit e).blockcount = s.blockcount := rfl
@[simp] theorem State.emit_fresh (e : ProgressEvent) (s : State) : (s.emit e).fresh = s.fresh := rfl
@[simp] theorem State.emit_txf (e : ProgressEvent) (s : State) : (s.emit e).txf = s.txf := rfl
@[simp] theorem State.emit_digestOk (e : ProgressEvent) (s : State) : (s.emit e).digestOk = s.digestOk := rfl
@[simp] theorem State.emit_lengthOk (e : ProgressEvent) (s : State) : (s.emit e).lengthOk = s.lengthOk := rfl
@[simp] theorem State.emit_abortReq (e : ProgressEvent) (s : State) : (s.emit e).abortReq = s.abortReq := rfl
@[simp] theorem State.emit_link (e : ProgressEvent) (s : State) : (s.emit e).link = s.link := rfl
@[simp] theorem State.emit_chan (e : ProgressEvent) (s : State) : (s.emit e).chan = s.chan := rfl
@[simp] theorem State.emit_err (e : ProgressEvent) (s : State) : (s.emit e).err = s.err := rfl
@[simp] theorem State.emit_evt (e : ProgressEvent) (s : State) : (s.emit e).evt = e := rfl
@[simp] theorem State.emit_cfg (e : ProgressEvent) (s : State) : (s.emit e).cfg = s.cfg := rfl
@[simp] theorem State.emit_imgLen (e : ProgressEvent) (s : State) : (s.emit e).imgLen = s.imgLen := rfl
@[simp] theorem State.emit_digest (e : ProgressEvent) (s : State) : (s.emit e).digest = s.digest := rfl
@[simp] theorem State.emit_img (e : ProgressEvent) (s : State) : (s.emit e).img = s.img := rfl
@[simp] theorem State.emit_script (e : ProgressEvent) (s : State) : (s.emit e).script = s.script := rfl
@[simp] theorem State.emit_loop (e : ProgressEvent) (s : State) : (s.emit e).loop = s.loop := rfl
@[simp] theorem State.emit_asked (e : ProgressEvent) (s : State) : (s.emit e).asked = s.asked := rfl
@[simp] theorem State.emit_trace (e : ProgressEvent) (s : State) : (s.emit e).trace = .emitted e :: s.trace := rfl
@[simp] theorem State.emit_ret (e : ProgressEvent) (s : State) : (s.emit e).ret = s.ret := rfl
@[simp] theorem State.emit_epoch (e : ProgressEvent) (s : State) : (s.emit e).epoch = s.epoch := rfl

/-! ### startRecovery -/

@[simp] theorem State.startRecovery_phase (s : State) : (s.startRecovery).phase = s.phase := rfl
@[simp] theorem State.startRecovery_pstep (s : State) : (s.startRecovery).pstep = s.pstep := rfl
@[simp] theorem State.startRecovery_hsK (s : State) : (s.startRecovery).hsK = s.hsK := rfl
@[simp] theorem State.startRecovery_wSlot (s : State) : (s.startRecovery).wSlot = s.wSlot := rfl
@[simp] theorem State.startRecovery_op (s : State) : (s.startRecovery).op = s.op := rfl
@[simp] theorem State.startRecovery_opstep (s : State) : (s.startRecovery).opstep = .recClose := rfl
@[simp] theorem State.startRecovery_cursor (s : State) : (s.startRecovery).cursor = s.cursor := rfl
@[simp] theorem State.startRecovery_lastrep (s : State) : (s.startRecovery).lastrep = s.lastrep := rfl
@[simp] theorem State.startRecovery_wbase (s : State) : (s.startRecovery).wbase = s.wbase := rfl
@[simp] theorem State.startRecovery_wsent (s : State) : (s.startRecovery).wsent = s.wsent := rfl
@[simp] theorem State.startRecovery_blockcount (s : State) : (s.startRecovery).blockcount = s.blockcount := rfl
@[simp] theorem State.startRecovery_fresh (s : State) : (s.startRecovery).fresh = s.fresh := rfl
@[simp] theorem State.startRecovery_txf (s : State) : (s.startRecovery).txf = s.txf := rfl
@[simp] theorem State.startRecovery_digestOk (s : State) : (s.startRecovery).digestOk = s.digestOk := rfl
@[simp] theorem State.startRecovery_lengthOk (s : State) : (s.startRecovery).lengthOk = s.lengthOk := rfl
@[simp] theorem State.startRecovery_abortReq (s : State) : (s.startRecovery).abortReq = s.abortReq := rfl
@[simp] theorem State.startRecovery_link (s : State) : (s.startRecovery).link = s.link := rfl
@[simp] theorem State.startRecovery_chan (s : State) : (s.startRecovery).chan = s.chan := rfl
@[simp] theorem State.startRecovery_err (s : State) : (s.startRecovery).err = s.err := rfl
@[simp] theorem State.startRecovery_evt (s : State) : (s.startRecovery).evt = s.evt := rfl
@[simp] theorem State.startRecovery_cfg (s : State) : (s.startRecovery).cfg = s.cfg := rfl
@[simp] theorem State.startRecovery_imgLen (s : State) : (s.startRecovery).imgLen = s.imgLen := rfl
@[simp] theorem State.startRecovery_digest (s : State) : (s.startRecovery).digest = s.digest := rfl
@[simp] theorem State.startRecovery_img (s : State) : (s.startRecovery).img = s.img := rfl
@[simp] theorem State.startRecovery_script (s : State) : (s.startRecovery).script = s.script := rfl
@[simp] theorem State.startRecovery_loop (s : State) : (s.startRecovery).loop = s.loop := rfl
@[simp] theorem State.startRecovery_asked (s : State) : (s.startRecovery).asked = s.asked := rfl
@[simp] theorem State.startRecovery_trace (s : State) : (s.startRecovery).trace = s.trace := rfl
@[simp] theorem State.startRecovery_ret (s : State) : (s.startRecovery).ret = s.ret := rfl
@[simp] theorem State.startRecovery_epoch (s : State) : (s.startRecovery).epoch = s.epoch := rfl

/-! ### channelLost -/

@[simp] theorem State.channelLost_phase (s : State) : (s.channelLost).phase = s.phase := rfl
@[simp] theorem State.channelLost_pstep (s : State) : (s.channelLost).pstep = s.pstep := rfl
@[simp] theorem State.channelLost_hsK (s : State) : (s.channelLost).hsK = s.hsK := rfl
@[simp] theorem State.channelLost_wSlot (s : State) : (s.channelLost).wSlot = s.wSlot := rfl
@[simp] theorem State.channelLost_op (s : State) : (s.channelLost).op = s.op := rfl
@[simp] theorem State.channelLost_opstep (s : State) : (s.channelLost).opstep = .recBringup := rfl
@[simp] theorem State.channelLost_cursor (s : State) : (s.channelLost).cursor = s.cursor := rfl
@[simp] theorem State.channelLost_lastrep (s : State) : (s.channelLost).lastrep = s.lastrep := rfl
@[simp] theorem State.channelLost_wbase (s : State) : (s.channelLost).wbase = s.wbase := rfl
@[simp] theorem State.channelLost_wsent (s : State) : (s.channelLost).wsent = s.wsent := rfl
@[simp] theorem State.channelLost_blockcount (s : State) : (s.channelLost).blockcount = s.blockcount := rfl
@[simp] theorem State.channelLost_fresh (s : State) : (s.channelLost).fresh = s.fresh := rfl
@[simp] theorem State.channelLost_txf (s : State) : (s.channelLost).txf = s.txf := rfl
@[simp] theorem State.channelLost_digestOk (s : State) : (s.channelLost).digestOk = s.digestOk := rfl
@[simp] theorem State.channelLost_lengthOk (s : State) : (s.channelLost).lengthOk = s.lengthOk := rfl
@[simp] theorem State.channelLost_abortReq (s : State) : (s.channelLost).abortReq = s.abortReq := rfl
@[simp] theorem State.channelLost_link (s : State) : (s.channelLost).link = .down := rfl
@[simp] theorem State.channelLost_chan (s : State) : (s.channelLost).chan = none := rfl
@[simp] theorem State.channelLost_err (s : State) : (s.channelLost).err = s.err := rfl
@[simp] theorem State.channelLost_evt (s : State) : (s.channelLost).evt = s.evt := rfl
@[simp] theorem State.channelLost_cfg (s : State) : (s.channelLost).cfg = s.cfg := rfl
@[simp] theorem State.channelLost_imgLen (s : State) : (s.channelLost).imgLen = s.imgLen := rfl
@[simp] theorem State.channelLost_digest (s : State) : (s.channelLost).digest = s.digest := rfl
@[simp] theorem State.channelLost_img (s : State) : (s.channelLost).img = s.img := rfl
@[simp] theorem State.channelLost_script (s : State) : (s.channelLost).script = s.script := rfl
@[simp] theorem State.channelLost_loop (s : State) : (s.channelLost).loop = s.loop := rfl
@[simp] theorem State.channelLost_asked (s : State) : (s.channelLost).asked = s.asked := rfl
@[simp] theorem State.channelLost_trace (s : State) : (s.channelLost).trace = s.trace := rfl
@[simp] theorem State.channelLost_ret (s : State) : (s.channelLost).ret = s.ret := rfl
@[simp] theorem State.channelLost_epoch (s : State) : (s.channelLost).epoch = s.epoch := rfl

/-! ### emitProgress -/

@[simp] theorem State.emitProgress_phase (s : State) : (s.emitProgress).phase = s.phase := rfl
@[simp] theorem State.emitProgress_pstep (s : State) : (s.emitProgress).pstep = s.pstep := rfl
@[simp] theorem State.emitProgress_hsK (s : State) : (s.emitProgress).hsK = s.hsK := rfl
@[simp] theorem State.emitProgress_wSlot (s : State) : (s.emitProgress).wSlot = s.wSlot := rfl
@[simp] theorem State.emitProgress_op (s : State) : (s.emitProgress).op = s.op := rfl
@[simp] theorem State.emitProgress_opstep (s : State) : (s.emitProgress).opstep = s.opstep := rfl
@[simp] theorem State.emitProgress_cursor (s : State) : (s.emitProgress).cursor = s.cursor := rfl
@[simp] theorem State.emitProgress_lastrep (s : State) : (s.emitProgress).lastrep = s.cursor := rfl
@[simp] theorem State.emitProgress_wbase (s : State) : (s.emitProgress).wbase = s.wbase := rfl
@[simp] theorem State.emitProgress_wsent (s : State) : (s.emitProgress).wsent = s.wsent := rfl
@[simp] theorem State.emitProgress_blockcount (s : State) : (s.emitProgress).blockcount = s.blockcount := rfl
@[simp] theorem State.emitProgress_fresh (s : State) : (s.emitProgress).fresh = s.fresh := rfl
@[simp] theorem State.emitProgress_txf (s : State) : (s.emitProgress).txf = s.txf := rfl
@[simp] theorem State.emitProgress_digestOk (s : State) : (s.emitProgress).digestOk = s.digestOk := rfl
@[simp] theorem State.emitProgress_lengthOk (s : State) : (s.emitProgress).lengthOk = s.lengthOk := rfl
@[simp] theorem State.emitProgress_abortReq (s : State) : (s.emitProgress).abortReq = s.abortReq := rfl
@[simp] theorem State.emitProgress_link (s : State) : (s.emitProgress).link = s.link := rfl
@[simp] theorem State.emitProgress_chan (s : State) : (s.emitProgress).chan = s.chan := rfl
@[simp] theorem State.emitProgress_err (s : State) : (s.emitProgress).err = s.err := rfl
@[simp] theorem State.emitProgress_evt (s : State) : (s.emitProgress).evt = s.progressEvent := rfl
@[simp] theorem State.emitProgress_cfg (s : State) : (s.emitProgress).cfg = s.cfg := rfl
@[simp] theorem State.emitProgress_imgLen (s : State) : (s.emitProgress).imgLen = s.imgLen := rfl
@[simp] theorem State.emitProgress_digest (s : State) : (s.emitProgress).digest = s.digest := rfl
@[simp] theorem State.emitProgress_img (s : State) : (s.emitProgress).img = s.img := rfl
@[simp] theorem State.emitProgress_script (s : State) : (s.emitProgress).script = s.script := rfl
@[simp] theorem State.emitProgress_loop (s : State) : (s.emitProgress).loop = s.loop := rfl
@[simp] theorem State.emitProgress_asked (s : State) : (s.emitProgress).asked = s.asked := rfl
@[simp] theorem State.emitProgress_trace (s : State) : (s.emitProgress).trace = .emitted s.progressEvent :: s.trace := rfl
@[simp] theorem State.emitProgress_ret (s : State) : (s.emitProgress).ret = s.ret := rfl
@[simp] theorem State.emitProgress_epoch (s : State) : (s.emitProgress).epoch = s.epoch := rfl

/-! ### openReturn -/

@[simp] theorem State.openReturn_phase (s : State) : (s.openReturn).phase = .sendingDigest := rfl
@[simp] theorem State.openReturn_pstep (s : State) : (s.openReturn).pstep = .boundary := rfl
@[simp] theorem State.openReturn_hsK (s : State) : (s.openReturn).hsK = 0 := rfl
@[simp] theorem State.openReturn_wSlot (s : State) : (s.openReturn).wSlot = s.wSlot := rfl
@[simp] theorem State.openReturn_op (s : State) : (s.openReturn).op = .noOp := rfl
@[simp] theorem State.openReturn_opstep (s : State) : (s.openReturn).opstep = s.opstep := rfl
@[simp] theorem State.openReturn_cursor (s : State) : (s.openReturn).cursor = s.cursor := rfl
@[simp] theorem State.openReturn_lastrep (s : State) : (s.openReturn).lastrep = s.lastrep := rfl
@[simp] theorem State.openReturn_wbase (s : State) : (s.openReturn).wbase = s.wbase := rfl
@[simp] theorem State.openReturn_wsent (s : State) : (s.openReturn).wsent = s.wsent := rfl
@[simp] theorem State.openReturn_blockcount (s : State) : (s.openReturn).blockcount = s.blockcount := rfl
@[simp] theorem State.openReturn_fresh (s : State) : (s.openReturn).fresh = s.fresh := rfl
@[simp] theorem State.openReturn_txf (s : State) : (s.openReturn).txf = s.txf := rfl
@[simp] theorem State.openReturn_digestOk (s : State) : (s.openReturn).digestOk = s.digestOk := rfl
@[simp] theorem State.openReturn_lengthOk (s : State) : (s.openReturn).lengthOk = s.lengthOk := rfl
@[simp] theorem State.openReturn_abortReq (s : State) : (s.openReturn).abortReq = s.abortReq := rfl
@[simp] theorem State.openReturn_link (s : State) : (s.openReturn).link = s.link := rfl
@[simp] theorem State.openReturn_chan (s : State) : (s.openReturn).chan = s.chan := rfl
@[simp] theorem State.openReturn_err (s : State) : (s.openReturn).err = s.err := rfl
@[simp] theorem State.openReturn_evt (s : State) : (s.openReturn).evt = s.evt := rfl
@[simp] theorem State.openReturn_cfg (s : State) : (s.openReturn).cfg = s.cfg := rfl
@[simp] theorem State.openReturn_imgLen (s : State) : (s.openReturn).imgLen = s.imgLen := rfl
@[simp] theorem State.openReturn_digest (s : State) : (s.openReturn).digest = s.digest := rfl
@[simp] theorem State.openReturn_img (s : State) : (s.openReturn).img = s.img := rfl
@[simp] theorem State.openReturn_script (s : State) : (s.openReturn).script = s.script := rfl
@[simp] theorem State.openReturn_loop (s : State) : (s.openReturn).loop = s.loop := rfl
@[simp] theorem State.openReturn_asked (s : State) : (s.openReturn).asked = s.asked := rfl
@[simp] theorem State.openReturn_trace (s : State) : (s.openReturn).trace = s.trace := rfl
@[simp] theorem State.openReturn_ret (s : State) : (s.openReturn).ret = s.ret := rfl
@[simp] theorem State.openReturn_epoch (s : State) : (s.openReturn).epoch = s.epoch := rfl

/-! ### lengthGapDone -/

@[simp] theorem State.lengthGapDone_phase (s : State) : (s.lengthGapDone).phase = s.phase := rfl
@[simp] theorem State.lengthGapDone_pstep (s : State) : (s.lengthGapDone).pstep = .rxTimed := rfl
@[simp] theorem State.lengthGapDone_hsK (s : State) : (s.lengthGapDone).hsK = s.hsK := rfl
@[simp] theorem State.lengthGapDone_wSlot (s : State) : (s.lengthGapDone).wSlot = s.wSlot := rfl
@[simp] theorem State.lengthGapDone_op (s : State) : (s.lengthGapDone).op = s.op := rfl
@[simp] theorem State.lengthGapDone_opstep (s : State) : (s.lengthGapDone).opstep = s.opstep := rfl
@[simp] theorem State.lengthGapDone_cursor (s : State) : (s.lengthGapDone).cursor = s.cursor := rfl
@[simp] theorem State.lengthGapDone_lastrep (s : State) : (s.lengthGapDone).lastrep = s.lastrep := rfl
@[simp] theorem State.lengthGapDone_wbase (s : State) : (s.lengthGapDone).wbase = s.wbase := rfl
@[simp] theorem State.lengthGapDone_wsent (s : State) : (s.lengthGapDone).wsent = s.wsent := rfl
@[simp] theorem State.lengthGapDone_blockcount (s : State) : (s.lengthGapDone).blockcount = s.blockcount := rfl
@[simp] theorem State.lengthGapDone_fresh (s : State) : (s.lengthGapDone).fresh = { s.fresh with valid := false } := rfl
@[simp] theorem State.lengthGapDone_txf (s : State) : (s.lengthGapDone).txf = s.txf := rfl
@[simp] theorem State.lengthGapDone_digestOk (s : State) : (s.lengthGapDone).digestOk = s.digestOk := rfl
@[simp] theorem State.lengthGapDone_lengthOk (s : State) : (s.lengthGapDone).lengthOk = s.lengthOk := rfl
@[simp] theorem State.lengthGapDone_abortReq (s : State) : (s.lengthGapDone).abortReq = s.abortReq := rfl
@[simp] theorem State.lengthGapDone_link (s : State) : (s.lengthGapDone).link = s.link := rfl
@[simp] theorem State.lengthGapDone_chan (s : State) : (s.lengthGapDone).chan = s.chan := rfl
@[simp] theorem State.lengthGapDone_err (s : State) : (s.lengthGapDone).err = s.err := rfl
@[simp] theorem State.lengthGapDone_evt (s : State) : (s.lengthGapDone).evt = s.evt := rfl
@[simp] theorem State.lengthGapDone_cfg (s : State) : (s.lengthGapDone).cfg = s.cfg := rfl
@[simp] theorem State.lengthGapDone_imgLen (s : State) : (s.lengthGapDone).imgLen = s.imgLen := rfl
@[simp] theorem State.lengthGapDone_digest (s : State) : (s.lengthGapDone).digest = s.digest := rfl
@[simp] theorem State.lengthGapDone_img (s : State) : (s.lengthGapDone).img = s.img := rfl
@[simp] theorem State.lengthGapDone_script (s : State) : (s.lengthGapDone).script = s.script := rfl
@[simp] theorem State.lengthGapDone_loop (s : State) : (s.lengthGapDone).loop = s.loop := rfl
@[simp] theorem State.lengthGapDone_asked (s : State) : (s.lengthGapDone).asked = s.asked := rfl
@[simp] theorem State.lengthGapDone_trace (s : State) : (s.lengthGapDone).trace = s.trace := rfl
@[simp] theorem State.lengthGapDone_ret (s : State) : (s.lengthGapDone).ret = s.ret := rfl
@[simp] theorem State.lengthGapDone_epoch (s : State) : (s.lengthGapDone).epoch = s.epoch := rfl

end Sys2Proof.Machine
end

