-- ==== Sys2Proof/Laws/Memory.lean ====
section
/-!
SUPPORT. The image memory: read after write, writes elsewhere, and the canonical form every memory operation keeps.
-/
namespace Sys2Proof.Machine

@[simp] theorem Memory.get_nil (a : Nat) : Memory.get [] a = none := rfl

theorem Memory.get_set_same (m : Memory) (a : Nat) (b : Byte) : Memory.get (Memory.set m a b) a = some b := by
  induction m with
  | nil => simp [Memory.set, Memory.get]
  | cons c m ih =>
    obtain ⟨k, v⟩ := c
    unfold Memory.set
    split
    · simp [Memory.get]
    · split
      · simp [Memory.get]
      · rename_i _ hne
        simp [Memory.get, Ne.symm hne, ih]

theorem Memory.get_set_other (m : Memory) {a x : Nat} (b : Byte) (h : x ≠ a) :
    Memory.get (Memory.set m a b) x = Memory.get m x := by
  induction m with
  | nil => simp [Memory.set, Memory.get, Ne.symm h]
  | cons c m ih =>
    obtain ⟨k, v⟩ := c
    unfold Memory.set
    split
    · simp [Memory.get, Ne.symm h]
    · split
      · rename_i hk
        subst hk
        simp [Memory.get, Ne.symm h]
      · simp [Memory.get, ih]

theorem Memory.wfFrom_set (m : Memory) {lo a : Nat} (b : Byte) (hlo : lo ≤ a) (ha : a < 2 ^ 32)
    (h : Memory.wfFrom lo m = true) : Memory.wfFrom lo (Memory.set m a b) = true := by
  induction m generalizing lo with
  | nil =>
    simp only [Memory.set, Memory.wfFrom, Bool.and_eq_true, decide_eq_true_eq]
    exact ⟨⟨hlo, ha⟩, trivial⟩
  | cons c m ih =>
    obtain ⟨k, v⟩ := c
    simp only [Memory.wfFrom, Bool.and_eq_true, decide_eq_true_eq] at h
    obtain ⟨⟨hk, hk32⟩, hm⟩ := h
    unfold Memory.set
    split
    · rename_i hak
      simp only [Memory.wfFrom, Bool.and_eq_true, decide_eq_true_eq]
      exact ⟨⟨hlo, ha⟩, ⟨hak, hk32⟩, hm⟩
    · split
      · rename_i _ hak
        subst hak
        simp only [Memory.wfFrom, Bool.and_eq_true, decide_eq_true_eq]
        exact ⟨⟨hlo, ha⟩, hm⟩
      · rename_i h1 h2
        simp only [Memory.wfFrom, Bool.and_eq_true, decide_eq_true_eq]
        exact ⟨⟨hk, hk32⟩, ih (by omega) hm⟩

/-- A host write to the image keeps the canonical form. -/
theorem Memory.wf_set (m : Memory) (a : BitVec 32) (b : Byte) (h : Memory.wf m = true) :
    Memory.wf (Memory.set m a.toNat b) = true :=
  Memory.wfFrom_set m b (Nat.zero_le _) a.isLt h

/-- Listed addresses are below 2^32. -/
theorem Memory.wfFrom_get_lt (m : Memory) {lo a : Nat} {v : Byte} (h : Memory.wfFrom lo m = true)
    (hg : Memory.get m a = some v) : lo ≤ a ∧ a < 2 ^ 32 := by
  induction m generalizing lo with
  | nil => simp at hg
  | cons c m ih =>
    obtain ⟨k, w⟩ := c
    simp only [Memory.wfFrom, Bool.and_eq_true, decide_eq_true_eq] at h
    obtain ⟨⟨hk, hk32⟩, hm⟩ := h
    unfold Memory.get at hg
    split at hg
    · rename_i hka
      exact ⟨by omega, by omega⟩
    · have := ih hm hg
      exact ⟨by omega, this.2⟩

/-- Two memories in canonical form that read alike are equal. -/
theorem Memory.ext_of_wfFrom {m n : Memory} {lo : Nat} (hm : Memory.wfFrom lo m = true) (hn : Memory.wfFrom lo n = true)
    (h : ∀ a, Memory.get m a = Memory.get n a) : m = n := by
  induction m generalizing n lo with
  | nil =>
    cases n with
    | nil => rfl
    | cons c n =>
      obtain ⟨k, v⟩ := c
      have := h k
      simp [Memory.get] at this
  | cons c m ih =>
    obtain ⟨k, v⟩ := c
    cases n with
    | nil =>
      have := h k
      simp [Memory.get] at this
    | cons d n =>
      obtain ⟨j, w⟩ := d
      simp only [Memory.wfFrom, Bool.and_eq_true, decide_eq_true_eq] at hm hn
      have hkj : k = j := by
        by_contra hne
        rcases Nat.lt_or_gt_of_ne hne with hlt | hlt
        · have h1 := h k
          simp only [Memory.get, if_true, Ne.symm hne, if_false] at h1
          have := (Memory.wfFrom_get_lt n hn.2 h1.symm).1
          omega
        · have h1 := h j
          simp only [Memory.get, if_true, hne, if_false] at h1
          have := (Memory.wfFrom_get_lt m hm.2 h1).1
          omega
      subst hkj
      have hv := h k
      simp only [Memory.get, if_true, Option.some.injEq] at hv
      subst hv
      have hmn : m = n := by
        apply ih hm.2 hn.2
        intro a
        by_cases ha : k = a
        · subst ha
          cases hg : Memory.get m k with
          | none =>
            cases hg' : Memory.get n k with
            | none => rfl
            | some y => exact absurd (Memory.wfFrom_get_lt n hn.2 hg').1 (by omega)
          | some y => exact absurd (Memory.wfFrom_get_lt m hm.2 hg).1 (by omega)
        · have := h a
          simpa [Memory.get, ha] using this
      rw [hmn]

/-- Reading a byte the host has just written gives it. -/
theorem State.imgByte_applyWrite_same (s : State) (a : BitVec 32) (b : Byte) :
    (s.applyWrite (.image a b)).imgByte a.toNat = b := by
  simp [State.applyWrite, State.imgByte, Memory.get_set_same]

/-- Every other byte reads as before. -/
theorem State.imgByte_applyWrite_other (s : State) {a : BitVec 32} {x : Nat} (b : Byte) (h : x ≠ a.toNat) :
    (s.applyWrite (.image a b)).imgByte x = s.imgByte x := by
  simp [State.applyWrite, State.imgByte, Memory.get_set_other _ _ h]

/-- Every host write keeps the canonical form of the image memory. -/
theorem State.hostWrite_image_wf (s : State) (w : HostWrite) (h : Memory.wf s.img = true) :
    Memory.wf (s.hostWrite w).img = true := by
  unfold State.hostWrite
  split
  · cases w <;> simp [State.applyWrite, h, Memory.wf_set]
  · exact h

/-- The image memory after reset is in canonical form. -/
theorem State.reset_image_wf : Memory.wf State.reset.img = true := rfl

end Sys2Proof.Machine
end

