-- ==== Sys2Proof/Laws/Ops.lean ====
section
/-!
SUPPORT. For each shared operation, what it does, said once: waiting for an answer, the ports, the window, the returns of the
link-supervisor operations, taking an exception and returning from a recovery, and what a phase does with a message.
-/
namespace Sys2Proof.Machine

/-! ### Waiting for an answer -/

@[simp] theorem awaitReply_reply {s : State} {r : Reply} {rest : List Turn} (k : Reply → State → State)
    (h : s.script = .reply r :: rest) : awaitReply s k = .next (k r { s with script := rest }) := by
  simp [awaitReply, h, State.pop]

/-- No answer stands at the head of the script. -/
def State.unanswered (s : State) : Prop := ∀ r rest, s.script ≠ .reply r :: rest

theorem awaitReply_waits {s : State} (k : Reply → State → State) (h : s.unanswered) : awaitReply s k = .next s := by
  unfold awaitReply
  split
  · rename_i r rest heq
    exact absurd heq (h r rest)
  all_goals rfl

/-- A port request always answers a next state: the state it waits in, or what its continuation makes of the answer. -/
theorem awaitReply_cases {s t : State} {k : Reply → State → State} (h : awaitReply s k = .next t) :
    t = s ∨ ∃ r rest, s.script = .reply r :: rest ∧ t = k r { s with script := rest } := by
  unfold awaitReply at h
  split at h
  · rename_i r rest heq
    refine .inr ⟨r, rest, heq, ?_⟩
    cases h
    simp [State.pop, heq]
  all_goals exact .inl (by cases h; rfl)

theorem awaitReply_goesOn (s : State) (k : Reply → State → State) : ∃ t, awaitReply s k = .next t := by
  unfold awaitReply
  split <;> exact ⟨_, rfl⟩

/-! ### The ports -/

/-- `Port.open` answered: a channel is held, or the failure is recorded. -/
theorem portOpen_cases {s t : State} {ok fail : State → State} (h : portOpen s ok fail = .next t) :
    t = s ∨ ∃ r rest, s.script = .reply r :: rest ∧
      ((∃ c, r.opened = some c ∧ t = ok { s with
          script := rest, chan := some c, link := .up, trace := .opened s.cfg.bus s.cfg.bitrate c :: s.trace }) ∨
        (r.opened = none ∧ t = fail { s with script := rest, trace := .openFailed s.cfg.bus s.cfg.bitrate :: s.trace })) := by
  rcases awaitReply_cases h with h | ⟨r, rest, hs, ht⟩
  · exact .inl h
  · refine .inr ⟨r, rest, hs, ?_⟩
    cases hr : r.opened with
    | none => exact .inr ⟨rfl, by simpa [hr, State.log] using ht⟩
    | some c => exact .inl ⟨c, rfl, by simpa [hr] using ht⟩

/-- `Port.send` answered: TXF was handed over, or refused; both are recorded. -/
theorem portSend_cases {s t : State} {c : Handle} {ok fail : State → State} (h : portSend s c ok fail = .next t) :
    t = s ∨ ∃ r rest, s.script = .reply r :: rest ∧
      ((r.sent = true ∧ t = ok { s with script := rest, trace := .sent c s.txf true :: s.trace }) ∨
        (r.sent = false ∧ t = fail { s with script := rest, trace := .sent c s.txf false :: s.trace })) := by
  rcases awaitReply_cases h with h | ⟨r, rest, hs, ht⟩
  · exact .inl h
  · refine .inr ⟨r, rest, hs, ?_⟩
    cases hr : r.sent with
    | false => exact .inr ⟨rfl, by simpa [hr, State.log] using ht⟩
    | true => exact .inl ⟨rfl, by simpa [hr, State.log] using ht⟩

/-- `Port.recv` answered: a frame, nothing, or an error. -/
theorem portRecv_cases {s t : State} {c : Handle} {got : RxFrame → State → State} {nothing fail : State → State}
    (h : portRecv s c got nothing fail = .next t) :
    t = s ∨ ∃ r rest, s.script = .reply r :: rest ∧
      ((∃ f, r.received = .frame f ∧ t = got f { s with script := rest }) ∨
        (r.received = .nothing ∧
          t = nothing { s with script := rest, trace := .received c s.recvTimeout .nothing :: s.trace }) ∨
        (r.received = .err ∧ t = fail { s with script := rest, trace := .received c s.recvTimeout .err :: s.trace })) := by
  rcases awaitReply_cases h with h | ⟨r, rest, hs, ht⟩
  · exact .inl h
  · refine .inr ⟨r, rest, hs, ?_⟩
    cases hr : r.received with
    | frame f => exact .inl ⟨f, rfl, by simpa [hr] using ht⟩
    | nothing => exact .inr (.inl ⟨rfl, by simpa [hr, State.log, State.recvTimeout] using ht⟩)
    | err => exact .inr (.inr ⟨rfl, by simpa [hr, State.log, State.recvTimeout] using ht⟩)

/-- A request answered `Done`. -/
theorem portDone_cases {s t : State} {e : Event} {k : State → State} (h : portDone s e k = .next t) :
    t = s ∨ ∃ r rest, s.script = .reply r :: rest ∧ t = k { s with script := rest, trace := e :: s.trace } := by
  rcases awaitReply_cases h with h | ⟨r, rest, hs, ht⟩
  · exact .inl h
  · exact .inr ⟨r, rest, hs, by simpa [State.log] using ht⟩

/-! ### The window -/

/-- Where the window goes from the current slot: to its send, or past its last slot to the extra receive or the report. -/
theorem State.seekSlot_cases (s : State) :
    (s.wSlot.toNat < s.cfg.window.toNat ∧ s.sendable = true ∧ s.seekSlot = { s with pstep := .send }) ∨
    (¬ (s.wSlot.toNat < s.cfg.window.toNat ∧ s.sendable = true) ∧ s.wsent = true ∧
      s.seekSlot = { s with wSlot := s.cfg.window, pstep := .report }) ∨
    (¬ (s.wSlot.toNat < s.cfg.window.toNat ∧ s.sendable = true) ∧ s.wsent = false ∧
      s.seekSlot = { s with wSlot := s.cfg.window, pstep := .rxTimed }) := by
  unfold State.seekSlot
  by_cases h : s.wSlot.toNat < s.cfg.window.toNat ∧ s.sendable = true
  · exact .inl ⟨h.1, h.2, by simp [h]⟩
  · cases hw : s.wsent with
    | true => exact .inr (.inl ⟨h, rfl, by simp [h]⟩)
    | false => exact .inr (.inr ⟨h, rfl, by simp [h]⟩)

/-- seekSlot writes only W_SLOT and PSTEP. -/
theorem State.seekSlot_frame (s : State) :
    s.seekSlot = { s with wSlot := s.seekSlot.wSlot, pstep := s.seekSlot.pstep } := by
  rcases s.seekSlot_cases with ⟨-, -, h⟩ | ⟨-, -, h⟩ | ⟨-, -, h⟩ <;> rw [h]

/-- After a slot's RX.POLL: the next slot; after the extra one: the report. -/
theorem State.slotDone_cases (s : State) :
    (s.wSlot.toNat < s.cfg.window.toNat ∧ s.slotDone = State.seekSlot { s with wSlot := s.wSlot + 1 }) ∨
    (s.cfg.window.toNat ≤ s.wSlot.toNat ∧ s.slotDone = { s with pstep := .report }) := by
  unfold State.slotDone
  split
  · exact .inl ⟨by assumption, rfl⟩
  · exact .inr ⟨by omega, rfl⟩

/-- slotDone writes only W_SLOT and PSTEP. -/
theorem State.slotDone_frame (s : State) :
    s.slotDone = { s with wSlot := s.slotDone.wSlot, pstep := s.slotDone.pstep } := by
  rcases s.slotDone_cases with ⟨-, h⟩ | ⟨-, h⟩
  · rw [h, State.seekSlot_frame]
  · rw [h]

/-! ### Returns -/

theorem State.sendReturn_cases (s : State) :
    (s.phase = .transfer ∧ s.sendReturn = { s with op := .noOp, wsent := true, pstep := .rxTimed }) ∨
    (s.phase ≠ .transfer ∧ s.sendReturn = { s with op := .noOp, pstep := .gap }) := by
  unfold State.sendReturn
  split
  · exact .inl ⟨by assumption, rfl⟩
  · exact .inr ⟨by assumption, rfl⟩

theorem State.recvNone_cases (s : State) :
    (s.phase = .transfer ∧ s.recvNone = State.slotDone { s with op := .noOp }) ∨
    (s.phase ≠ .transfer ∧ s.recvNone = { s with op := .noOp, pstep := .eval }) := by
  unfold State.recvNone
  split
  · exact .inl ⟨by assumption, rfl⟩
  · exact .inr ⟨by assumption, rfl⟩

/-- recvNone writes only OP, W_SLOT and PSTEP. -/
theorem State.recvNone_frame (s : State) :
    s.recvNone = { s with op := .noOp, wSlot := s.recvNone.wSlot, pstep := s.recvNone.pstep } := by
  rcases s.recvNone_cases with ⟨-, h⟩ | ⟨-, h⟩
  · rw [h, State.slotDone_frame]
  · rw [h]

theorem State.closeReturn_cases (s : State) :
    (s.phase = .transfer ∧ s.pstep = .exit ∧
      s.closeReturn = { s with link := .closed, chan := none, op := .noOp, phase := .done, pstep := .boundary }) ∨
    (¬ (s.phase = .transfer ∧ s.pstep = .exit) ∧
      s.closeReturn = { s with
        link := .closed, chan := none, op := .noOp, opstep := .tryPort, phase := .aborted, pstep := .boundary }) := by
  unfold State.closeReturn
  split
  · rename_i h
    exact .inl ⟨h.1, h.2, rfl⟩
  · exact .inr ⟨by assumption, rfl⟩

theorem State.digestGapDone_cases (s : State) :
    (s.hsK.toNat < 3 ∧ s.digestGapDone = { s with hsK := s.hsK + 1, pstep := .send }) ∨
    (3 ≤ s.hsK.toNat ∧
      s.digestGapDone = { s with hsK := 4, fresh := { s.fresh with valid := false }, pstep := .rxTimed }) := by
  unfold State.digestGapDone
  split
  · exact .inl ⟨by assumption, rfl⟩
  · exact .inr ⟨by omega, rfl⟩

/-! ### Exceptions -/

@[simp] theorem takeException_config (c : ConfigCause) (s : State) :
    takeException (.config c) s = { s with err := errCode (.config c), phase := .cfgError } := rfl

@[simp] theorem takeException_linkOpenFailed (s : State) :
    takeException .linkOpenFailed s =
      { s with link := .closed, chan := none, op := .noOp, err := 0x11, phase := .linkFailed } := rfl

@[simp] theorem takeException_linkSendFailed (s : State) :
    takeException .linkSendFailed s = { s with opstep := .recClose } := rfl

@[simp] theorem takeException_linkRecvFailed (s : State) :
    takeException .linkRecvFailed s = { s with opstep := .recClose } := rfl

@[simp] theorem takeException_decode (c : DecodeCause) (s : State) : takeException (.decode c) s = s := rfl

/-- Where a recovery returns to. -/
theorem returnFromRecovery_cases (ok : Bool) (s : State) :
    (s.op = .openOp ∧ ok = true ∧ returnFromRecovery ok s = s.openReturn) ∨
    (s.op = .openOp ∧ ok = false ∧ returnFromRecovery ok s = takeException .linkOpenFailed s) ∨
    (s.op = .sendOp ∧ ok = true ∧ returnFromRecovery ok s = { s with opstep := .retry }) ∨
    (s.op = .sendOp ∧ ok = false ∧ returnFromRecovery ok s = s.sendReturn) ∨
    (s.op = .recvOp ∧ returnFromRecovery ok s = s.recvNone) ∨
    ((s.op = .noOp ∨ s.op = .closeOp) ∧ returnFromRecovery ok s = s) := by
  unfold returnFromRecovery
  cases h : s.op <;> cases ok <;> simp

/-! ### Received messages -/

/-- What consume does: PROGRESS to FRESH in the handshake, to CURSOR in the engine, anything else nowhere. -/
theorem State.consume_cases (m : Message) (s : State) :
    (∃ rd rl wr idx, m = .progress rd rl wr idx ∧ (s.phase = .sendingDigest ∨ s.phase = .sendingLength) ∧
      s.consume m = { s with fresh := { valid := true, rd := rd, rl := rl, wr := wr, idx := idx } }) ∨
    (∃ rd rl wr idx, m = .progress rd rl wr idx ∧ s.phase = .transfer ∧
      s.consume m = { s with cursor := cursorUpdate s.cursor wr idx }) ∨
    s.consume m = s := by
  cases m with
  | progress rd rl wr idx =>
    cases h : s.phase
    case sendingDigest => exact .inl ⟨rd, rl, wr, idx, rfl, .inl rfl, by simp [State.consume, h]⟩
    case sendingLength => exact .inl ⟨rd, rl, wr, idx, rfl, .inr rfl, by simp [State.consume, h]⟩
    case transfer => exact .inr (.inl ⟨rd, rl, wr, idx, rfl, rfl, by simp [State.consume, h]⟩)
    all_goals exact .inr (.inr (by simp [State.consume, h]))
  | data i d => exact .inr (.inr rfl)
  | infoLen n => exact .inr (.inr rfl)
  | infoDig k c => exact .inr (.inr rfl)
  | notFutp => exact .inr (.inr rfl)
  | decodeError c => exact .inr (.inr rfl)

/-- CUR.UPDATE never lowers the cursor. -/
theorem le_cursorUpdate (cur : Signed33) (wr : Bool) (idx : BitVec 32) : cur.toInt ≤ (cursorUpdate cur wr idx).toInt := by
  unfold cursorUpdate
  split
  · rename_i h
    rw [BitVec.slt_iff_toInt_lt] at h
    exact Int.le_of_lt h
  · exact Int.le_refl _

/-! ### Host writes -/

/-- A host write changes only the configuration and the inputs. -/
theorem State.applyWrite_frame (w : HostWrite) (s : State) :
    s.applyWrite w = { s with
      cfg := (s.applyWrite w).cfg, imgLen := (s.applyWrite w).imgLen, digest := (s.applyWrite w).digest
      img := (s.applyWrite w).img } := by
  cases w <;> rfl

theorem State.hostWrite_running (w : HostWrite) {s : State} (h : s.phase.atRest = false) : s.hostWrite w = s := by
  simp [State.hostWrite, h]

theorem State.hostWrite_atRest (w : HostWrite) {s : State} (h : s.phase.atRest = true) : s.hostWrite w = s.applyWrite w := by
  simp [State.hostWrite, h]

end Sys2Proof.Machine
end

