-- ==== Sys2Proof/Laws/Step.lean ====
section
/-!
SUPPORT. What a step can do, said once: which control states select each operation, and the cases of a step.
-/
namespace Sys2Proof.Machine

/-! ### Selection -/

/-- The selection read off the control state itself, phase by phase: decodeControl without its codes. -/
def State.linkSelection (s : State) (closing : Bool) : Except Reject Instr :=
  match s.op with
  | .noOp | .openOp => .error .noOperation
  | .sendOp =>
    if s.pstep = .send then
      match s.opstep with
      | .tryPort | .retry => .ok .lsSend
      | .recClose | .recBringup | .recOpen => .ok .lsRecover
    else .error .noOperation
  | .recvOp =>
    if s.pstep = .rxTimed ∨ s.pstep = .rxDrain then
      match s.opstep with
      | .tryPort => .ok .lsRecv
      | .recClose | .recBringup | .recOpen => .ok .lsRecover
      | .retry => .error .noOperation
    else .error .noOperation
  | .closeOp => if closing ∧ s.opstep = .tryPort then .ok .lsClose else .error .noOperation

theorem State.decodeLinkOp_eq (s : State) (b : Bool) : decodeLinkOp s.controlCode b = s.linkSelection b := by
  unfold State.linkSelection
  cases ho : s.op <;> cases hp : s.pstep <;> cases hq : s.opstep <;>
    simp [decodeLinkOp, State.controlCode, ho, hp, hq, Op.code, PStep.code, OpStep.code]

/-- At rest nothing is selected. -/
theorem State.selected_atRest {s : State} (h : s.phase.atRest = true) : s.selected = .error .atRest := by
  cases hp : s.phase <;> simp [hp, Phase.atRest] at h <;>
    simp [State.selected, decodeControl, State.controlCode, hp, Phase.code]

theorem State.selected_opening {s : State} (h : s.phase = .opening) :
    s.selected =
      match s.op with
      | .noOp => .ok .lsOpen
      | .openOp =>
        match s.opstep with
        | .tryPort => .ok .lsOpen
        | .recClose | .recBringup | .recOpen => .ok .lsRecover
        | .retry => .error .noOperation
      | .sendOp | .recvOp | .closeOp => .error .noOperation := by
  cases ho : s.op <;> cases hq : s.opstep <;>
    simp [State.selected, decodeControl, decodeOpening, State.controlCode, h, ho, hq, Phase.code, Op.code, OpStep.code]

theorem State.selected_digestConfirmed {s : State} (h : s.phase = .digestConfirmed) :
    s.selected = if s.op = .noOp then .ok .hsEvalDigest else .error .noOperation := by
  cases ho : s.op <;>
    simp [State.selected, decodeControl, decodeTransient, State.controlCode, h, ho, Phase.code, Op.code]

theorem State.selected_lengthConfirmed {s : State} (h : s.phase = .lengthConfirmed) :
    s.selected = if s.op = .noOp then .ok .bteEnter else .error .noOperation := by
  cases ho : s.op <;>
    simp [State.selected, decodeControl, decodeTransient, State.controlCode, h, ho, Phase.code, Op.code]

theorem State.selected_sendingDigest {s : State} (h : s.phase = .sendingDigest) :
    s.selected =
      if s.op = .noOp then
        match s.pstep with
        | .boundary => if s.abortReq then .ok .abortExit else .ok .hsDigestRound
        | .send | .gap => .ok .hsDigestRound
        | .rxTimed | .rxDrain => .ok .rxPoll
        | .eval => .ok .hsEvalDigest
        | .report | .exit => .error .noOperation
      else s.linkSelection (decide (s.pstep = .boundary)) := by
  rw [← State.decodeLinkOp_eq]
  cases ho : s.op <;> cases hp : s.pstep <;>
    simp [State.selected, decodeControl, decodeHandshake, State.controlCode, h, ho, hp, Phase.code, Op.code, PStep.code]

theorem State.selected_sendingLength {s : State} (h : s.phase = .sendingLength) :
    s.selected =
      if s.op = .noOp then
        match s.pstep with
        | .boundary => if s.abortReq then .ok .abortExit else .ok .hsLengthRound
        | .send | .gap => .ok .hsLengthRound
        | .rxTimed | .rxDrain => .ok .rxPoll
        | .eval => .ok .hsEvalLength
        | .report | .exit => .error .noOperation
      else s.linkSelection (decide (s.pstep = .boundary)) := by
  rw [← State.decodeLinkOp_eq]
  cases ho : s.op <;> cases hp : s.pstep <;>
    simp [State.selected, decodeControl, decodeHandshake, State.controlCode, h, ho, hp, Phase.code, Op.code, PStep.code]

theorem State.selected_transfer {s : State} (h : s.phase = .transfer) :
    s.selected =
      if s.op = .noOp then
        match s.pstep with
        | .boundary =>
          if s.complete then .ok .bteExit else if s.abortReq then .ok .abortExit else .ok .bteWindow
        | .send => .ok .bteWindow
        | .rxTimed | .rxDrain => .ok .rxPoll
        | .report => .ok .prReport
        | .exit => if s.flushDue then .ok .prFlush else .ok .bteExit
        | .gap | .eval => .error .noOperation
      else s.linkSelection (decide (s.pstep = .boundary) || decide (s.pstep = .exit)) := by
  rw [← State.decodeLinkOp_eq]
  cases ho : s.op <;> cases hp : s.pstep <;>
    simp [State.selected, decodeControl, decodeTransfer, State.controlCode, h, ho, hp, Phase.code, Op.code, PStep.code]

/-- What linkSelection selects. -/
theorem State.linkSelection_ok {s : State} {b : Bool} {i : Instr} (h : s.linkSelection b = .ok i) :
    (i = .lsSend ∧ s.op = .sendOp ∧ s.pstep = .send ∧ (s.opstep = .tryPort ∨ s.opstep = .retry)) ∨
    (i = .lsRecv ∧ s.op = .recvOp ∧ (s.pstep = .rxTimed ∨ s.pstep = .rxDrain) ∧ s.opstep = .tryPort) ∨
    (i = .lsRecover ∧ (s.op = .sendOp ∧ s.pstep = .send ∨ s.op = .recvOp ∧ (s.pstep = .rxTimed ∨ s.pstep = .rxDrain)) ∧
      (s.opstep = .recClose ∨ s.opstep = .recBringup ∨ s.opstep = .recOpen)) ∨
    (i = .lsClose ∧ s.op = .closeOp ∧ b = true ∧ s.opstep = .tryPort) := by
  unfold State.linkSelection at h
  cases ho : s.op <;> cases hp : s.pstep <;> cases hq : s.opstep <;> cases b <;> simp [ho, hp, hq] at h <;> subst h <;> simp

/-- THE SELECTION: for every operation the block selects, the control state that selects it. -/
inductive State.Selects (s : State) : Instr → Prop
  | openCall (hp : s.phase = .opening) (ho : s.op = .noOp) : s.Selects .lsOpen
  | openTry (hp : s.phase = .opening) (ho : s.op = .openOp) (hq : s.opstep = .tryPort) : s.Selects .lsOpen
  | openRecover (hp : s.phase = .opening) (ho : s.op = .openOp)
      (hq : s.opstep = .recClose ∨ s.opstep = .recBringup ∨ s.opstep = .recOpen) : s.Selects .lsRecover
  | digestConfirmed (hp : s.phase = .digestConfirmed) (ho : s.op = .noOp) : s.Selects .hsEvalDigest
  | lengthConfirmed (hp : s.phase = .lengthConfirmed) (ho : s.op = .noOp) : s.Selects .bteEnter
  | abort (hp : s.phase.exchanging = true) (ho : s.op = .noOp) (hq : s.pstep = .boundary) (ha : s.abortReq = true)
      (hc : s.phase = .transfer → s.complete = false) : s.Selects .abortExit
  | digestBoundary (hp : s.phase = .sendingDigest) (ho : s.op = .noOp) (hq : s.pstep = .boundary) (ha : s.abortReq = false) :
      s.Selects .hsDigestRound
  | digestSend (hp : s.phase = .sendingDigest) (ho : s.op = .noOp) (hq : s.pstep = .send) : s.Selects .hsDigestRound
  | digestGap (hp : s.phase = .sendingDigest) (ho : s.op = .noOp) (hq : s.pstep = .gap) : s.Selects .hsDigestRound
  | digestEval (hp : s.phase = .sendingDigest) (ho : s.op = .noOp) (hq : s.pstep = .eval) : s.Selects .hsEvalDigest
  | lengthBoundary (hp : s.phase = .sendingLength) (ho : s.op = .noOp) (hq : s.pstep = .boundary) (ha : s.abortReq = false) :
      s.Selects .hsLengthRound
  | lengthSend (hp : s.phase = .sendingLength) (ho : s.op = .noOp) (hq : s.pstep = .send) : s.Selects .hsLengthRound
  | lengthGap (hp : s.phase = .sendingLength) (ho : s.op = .noOp) (hq : s.pstep = .gap) : s.Selects .hsLengthRound
  | lengthEval (hp : s.phase = .sendingLength) (ho : s.op = .noOp) (hq : s.pstep = .eval) : s.Selects .hsEvalLength
  | complete (hp : s.phase = .transfer) (ho : s.op = .noOp) (hq : s.pstep = .boundary) (hc : s.complete = true) :
      s.Selects .bteExit
  | window (hp : s.phase = .transfer) (ho : s.op = .noOp) (hq : s.pstep = .boundary) (hc : s.complete = false)
      (ha : s.abortReq = false) : s.Selects .bteWindow
  | slot (hp : s.phase = .transfer) (ho : s.op = .noOp) (hq : s.pstep = .send) : s.Selects .bteWindow
  | report (hp : s.phase = .transfer) (ho : s.op = .noOp) (hq : s.pstep = .report) : s.Selects .prReport
  | flush (hp : s.phase = .transfer) (ho : s.op = .noOp) (hq : s.pstep = .exit) (hf : s.flushDue = true) : s.Selects .prFlush
  | exit (hp : s.phase = .transfer) (ho : s.op = .noOp) (hq : s.pstep = .exit) (hf : s.flushDue = false) : s.Selects .bteExit
  | poll (hp : s.phase.exchanging = true) (ho : s.op = .noOp) (hq : s.pstep = .rxTimed ∨ s.pstep = .rxDrain) :
      s.Selects .rxPoll
  | send (hp : s.phase.exchanging = true) (ho : s.op = .sendOp) (hs : s.pstep = .send)
      (hq : s.opstep = .tryPort ∨ s.opstep = .retry) : s.Selects .lsSend
  | recv (hp : s.phase.exchanging = true) (ho : s.op = .recvOp) (hs : s.pstep = .rxTimed ∨ s.pstep = .rxDrain)
      (hq : s.opstep = .tryPort) : s.Selects .lsRecv
  | sendRecover (hp : s.phase.exchanging = true) (ho : s.op = .sendOp) (hs : s.pstep = .send)
      (hq : s.opstep = .recClose ∨ s.opstep = .recBringup ∨ s.opstep = .recOpen) : s.Selects .lsRecover
  | recvRecover (hp : s.phase.exchanging = true) (ho : s.op = .recvOp) (hs : s.pstep = .rxTimed ∨ s.pstep = .rxDrain)
      (hq : s.opstep = .recClose ∨ s.opstep = .recBringup ∨ s.opstep = .recOpen) : s.Selects .lsRecover
  | close (hp : s.phase.exchanging = true) (ho : s.op = .closeOp)
      (hs : s.pstep = .boundary ∨ s.phase = .transfer ∧ s.pstep = .exit) (hq : s.opstep = .tryPort) : s.Selects .lsClose

theorem State.selects_of_linkSelection {s : State} {b : Bool} {i : Instr} (hp : s.phase.exchanging = true)
    (hb : b = true → s.pstep = .boundary ∨ s.phase = .transfer ∧ s.pstep = .exit) (h : s.linkSelection b = .ok i) :
    s.Selects i := by
  rcases State.linkSelection_ok h with ⟨rfl, ho, hs, hq⟩ | ⟨rfl, ho, hs, hq⟩ | ⟨rfl, hos, hq⟩ | ⟨rfl, ho, hb', hq⟩
  · exact .send hp ho hs hq
  · exact .recv hp ho hs hq
  · rcases hos with ⟨ho, hs⟩ | ⟨ho, hs⟩
    · exact .sendRecover hp ho hs hq
    · exact .recvRecover hp ho hs hq
  · exact .close hp ho (hb hb') hq

/-- What is selected is selected by one of the control states of `State.Selects`. -/
theorem State.selects_of_selected {s : State} {i : Instr} (h : s.selected = .ok i) : s.Selects i := by
  cases hp : s.phase
  case opening =>
    rw [State.selected_opening hp] at h
    cases ho : s.op <;> simp [ho] at h
    · subst h; exact .openCall hp ho
    · cases hq : s.opstep <;> simp [hq] at h <;> subst h
      · exact .openTry hp ho hq
      · exact .openRecover hp ho (.inl hq)
      · exact .openRecover hp ho (.inr (.inl hq))
      · exact .openRecover hp ho (.inr (.inr hq))
  case digestConfirmed =>
    rw [State.selected_digestConfirmed hp] at h
    split at h
    · cases h; exact .digestConfirmed hp (by assumption)
    · cases h
  case lengthConfirmed =>
    rw [State.selected_lengthConfirmed hp] at h
    split at h
    · cases h; exact .lengthConfirmed hp (by assumption)
    · cases h
  case sendingDigest =>
    rw [State.selected_sendingDigest hp] at h
    have hx : s.phase.exchanging = true := by simp [hp, Phase.exchanging]
    split at h
    · rename_i ho
      cases hq : s.pstep <;> simp [hq] at h
      · cases ha : s.abortReq <;> simp [ha] at h <;> subst h
        · exact .digestBoundary hp ho hq ha
        · exact .abort hx ho hq ha (by simp [hp])
      · subst h; exact .digestSend hp ho hq
      · subst h; exact .digestGap hp ho hq
      · subst h; exact .poll hx ho (.inl hq)
      · subst h; exact .poll hx ho (.inr hq)
      · subst h; exact .digestEval hp ho hq
    · exact State.selects_of_linkSelection hx (fun hb => .inl (by simpa using hb)) h
  case sendingLength =>
    rw [State.selected_sendingLength hp] at h
    have hx : s.phase.exchanging = true := by simp [hp, Phase.exchanging]
    split at h
    · rename_i ho
      cases hq : s.pstep <;> simp [hq] at h
      · cases ha : s.abortReq <;> simp [ha] at h <;> subst h
        · exact .lengthBoundary hp ho hq ha
        · exact .abort hx ho hq ha (by simp [hp])
      · subst h; exact .lengthSend hp ho hq
      · subst h; exact .lengthGap hp ho hq
      · subst h; exact .poll hx ho (.inl hq)
      · subst h; exact .poll hx ho (.inr hq)
      · subst h; exact .lengthEval hp ho hq
    · exact State.selects_of_linkSelection hx (fun hb => .inl (by simpa using hb)) h
  case transfer =>
    rw [State.selected_transfer hp] at h
    have hx : s.phase.exchanging = true := by simp [hp, Phase.exchanging]
    split at h
    · rename_i ho
      cases hq : s.pstep <;> simp [hq] at h
      · cases hc : s.complete <;> simp [hc] at h
        · cases ha : s.abortReq <;> simp [ha] at h <;> subst h
          · exact .window hp ho hq hc ha
          · exact .abort hx ho hq ha (fun _ => hc)
        · subst h; exact .complete hp ho hq hc
      · subst h; exact .slot hp ho hq
      · subst h; exact .poll hx ho (.inl hq)
      · subst h; exact .poll hx ho (.inr hq)
      · subst h; exact .report hp ho hq
      · cases hf : s.flushDue <;> simp [hf] at h <;> subst h
        · exact .exit hp ho hq hf
        · exact .flush hp ho hq hf
    · refine State.selects_of_linkSelection hx (fun hb => ?_) h
      simp only [Bool.or_eq_true, decide_eq_true_eq] at hb
      exact hb.imp id fun h => ⟨hp, h⟩
  all_goals
    rw [State.selected_atRest (by simp [hp, Phase.atRest])] at h
    cases h

/-! ### The block's fetch -/

/-- A receive outstanding on channel `c`. -/
theorem State.receiving_iff {s : State} : s.receiving = true ↔
    s.phase.exchanging = true ∧ s.op = .recvOp ∧ s.opstep = .tryPort ∧ (s.pstep = .rxTimed ∨ s.pstep = .rxDrain) ∧
      ∃ c, s.live = some c := by
  simp [State.receiving, Option.isSome_iff_exists, and_assoc]

/-- What the block does next is an operation its control state selects, or the frame its outstanding receive is answered with. -/
theorem State.blockFetch_cases {s : State} {i : Instr} (h : s.blockFetch = .ok i) :
    s.Selects i ∨ ∃ r rest f, s.script = .reply r :: rest ∧ s.receiving = true ∧ r.received = .frame f ∧
      decodeFrame s.cfg.baseId f = .ok i := by
  unfold State.blockFetch at h
  split at h
  · rename_i r rest hs
    split at h
    · rename_i hr
      split at h
      · rename_i f hf
        split at h
        · rename_i j hj
          cases h
          exact .inr ⟨r, rest, f, hs, hr, hf, hj⟩
        · exact .inl (State.selects_of_selected h)
      all_goals exact .inl (State.selects_of_selected h)
    · exact .inl (State.selects_of_selected h)
  all_goals exact .inl (State.selects_of_selected h)

/-- A frame that decodes is executed as what LS.RECV does with its message. -/
theorem exec_of_decodeFrame {base : Ident} {f : RxFrame} {i : Instr} (h : decodeFrame base f = .ok i) (s : State) :
    exec i s = receiveFrame (decodeMessage base f) s := by
  unfold decodeFrame Instr.ofMessage at h
  cases hm : decodeMessage base f <;> simp [hm] at h <;> subst h <;> rfl

/-! ### The environment's next turn -/

theorem State.drawTurn_frame (s : State) : s.drawTurn = { s with script := s.drawTurn.script, asked := s.drawTurn.asked } := by
  unfold State.drawTurn
  cases s.script <;> dsimp only
  all_goals
    repeat' split
    all_goals rfl

/-- The turn drawn is none that is still to be drawn. -/
theorem State.drawTurn_head (s : State) (rest : List Turn) : s.drawTurn.script ≠ .any :: rest := by
  unfold State.drawTurn
  intro h
  dsimp only at h
  generalize (match s.script with
    | [] => { s with script := s.loop }
    | _ :: _ => s : State) = u at h
  split at h
  · split at h
    · simp at h
    · rename_i hx
      simp only [List.cons.injEq] at h
      exact hx h.1
  all_goals simp_all

/-- Any turn but a free one is the next turn where it stands at the head of the script. -/
theorem State.drawTurn_cons {s : State} {x : Turn} {rest : List Turn} (h : s.script = x :: rest) (hx : x ≠ .any) :
    s.drawTurn = s := by
  unfold State.drawTurn
  rw [h]
  cases x <;> simp_all

/-- The environment is silent. -/
theorem State.drawTurn_nil {s : State} (h : s.script = []) (hl : s.loop = []) : s.drawTurn = s := by
  unfold State.drawTurn
  cases s
  simp_all

/-- The turns the environment repeats come when the script is used up. -/
theorem State.drawTurn_loop {s : State} (h : s.script = []) {x : Turn} {rest : List Turn} (hl : s.loop = x :: rest) (hx : x ≠ .any) :
    s.drawTurn = { s with script := s.loop } := by
  unfold State.drawTurn
  rw [h]
  cases x <;> simp_all

/-- Drawing the next turn twice draws it once. -/
theorem State.drawTurn_idem (s : State) : s.drawTurn.drawTurn = s.drawTurn := by
  have hh := s.drawTurn_head
  cases hs : s.drawTurn.script with
  | cons x rest => exact State.drawTurn_cons hs fun hx => hh rest (by rw [hs, hx])
  | nil =>
    refine State.drawTurn_nil hs ?_
    rw [s.drawTurn_frame]
    show s.loop = []
    unfold State.drawTurn at hs
    cases hsc : s.script with
    | cons x rest => cases x <;> simp [hsc] at hs; split at hs <;> cases hs
    | nil =>
      cases hl : s.loop with
      | nil => rfl
      | cons x rest => cases x <;> simp [hsc, hl] at hs; split at hs <;> cases hs

/-- A step is taken on the turn that is drawn. -/
theorem step_drawTurn (s : State) : step s.drawTurn = step s := by
  simp only [step, stepOnce, State.drawTurn_idem]

@[simp] theorem State.dropReply_reply {s : State} {r : Reply} {rest : List Turn} (h : s.script = .reply r :: rest) :
    s.dropReply = { s with script := rest } := by
  simp [State.dropReply, h, State.pop]

/-- dropReply takes an answer off the script or does nothing. -/
theorem State.dropReply_cases (s : State) :
    s.dropReply = s ∨ ∃ r rest, s.script = .reply r :: rest ∧ s.dropReply = { s with script := rest } := by
  unfold State.dropReply
  split
  · rename_i r rest h
    exact .inr ⟨r, rest, h, by simp [State.pop, h]⟩
  all_goals exact .inl rfl

theorem andThen_eq_next {o : Host.Outcome State Fault Refusal} {k : State → Host.Outcome State Fault Refusal} {t : State} :
    andThen o k = .next t ↔ ∃ u, o = .next u ∧ k u = .next t := by
  cases o <;> simp [andThen]

/-! ### Internal computation -/

/-- Everything one line of internal computation can write: the control registers, the window's registers, TXF, the handshake flags
and the link state. -/
def State.sameOutside (s t : State) : Prop :=
  t = { s with
    phase := t.phase, pstep := t.pstep, hsK := t.hsK, wSlot := t.wSlot, op := t.op, opstep := t.opstep, wbase := t.wbase
    wsent := t.wsent, txf := t.txf, digestOk := t.digestOk, lengthOk := t.lengthOk, link := t.link, chan := t.chan }

theorem State.sameOutside_refl (s : State) : s.sameOutside s := rfl

theorem State.sameOutside_trans {s t u : State} (h : s.sameOutside t) (g : t.sameOutside u) : s.sameOutside u := by
  unfold State.sameOutside at *
  rw [g, h]

theorem State.seekSlot_outside (s : State) : s.sameOutside s.seekSlot := by
  unfold State.sameOutside
  rw [State.seekSlot_frame]

/-- How far the internal computation is from its end, at most. -/
def State.distance (s : State) : Nat :=
  match s.op with
  | .noOp =>
    match s.phase with
    | .idle | .lengthConfirmed | .done | .aborted | .cfgError | .linkFailed => 0
    | .opening => 3
    | .digestConfirmed => 5
    | .sendingDigest | .sendingLength | .transfer =>
      match s.pstep with
      | .send | .rxTimed | .rxDrain => 3
      | .boundary => 4
      | .report => 5
      | .eval => 6
      | .exit => 2
      | .gap => 0
  | .closeOp => 1
  | .openOp | .sendOp | .recvOp =>
    match s.opstep with
    | .retry => 4
    | .tryPort => 2
    | .recClose => 1
    | .recBringup | .recOpen => 0

/-- THE INTERNAL COMPUTATION, one line of it: where the control state makes no atomic step the operation it selects writes only
control state, TXF, the flags and the link state, records nothing, and brings the computation nearer to its end. -/
theorem computing_exec {s t : State} {i : Instr} (hc : s.computing = true) (hs : s.Selects i) (he : exec i s = .next t) :
    s.sameOutside t ∧ t.distance < s.distance := by
  have hx : ∀ {p : Phase}, p.exchanging = true → p = .sendingDigest ∨ p = .sendingLength ∨ p = .transfer := by
    intro p h; cases p <;> simp_all [Phase.exchanging]
  simp only [State.computing, Bool.and_eq_true, Bool.not_eq_true'] at hc
  obtain ⟨⟨-, hr⟩, hm⟩ := hc
  cases hs with
  | openCall hp ho =>
    simp only [exec, execLsOpen, ho] at he; cases he
    exact ⟨rfl, by simp [State.distance, State.call, ho, hp]⟩
  | openTry hp ho hq => simp [State.atRequest, ho, hq] at hr
  | openRecover hp ho hq =>
    rcases hq with hq | hq | hq <;> simp [State.atRequest, ho, hq] at hr
    simp only [exec, execLsRecover, ho, hq, hr] at he; cases he
    exact ⟨rfl, by simp [State.distance, State.channelLost, ho, hq]⟩
  | digestConfirmed hp ho =>
    simp only [exec, execHsEvalDigest, hp, ho] at he; cases he
    exact ⟨rfl, by simp [State.distance, ho, hp]⟩
  | lengthConfirmed hp ho => simp [State.atEmit, hp, ho] at hm
  | abort hp ho hq ha _ =>
    rcases hx hp with hp | hp | hp <;> simp [exec, execAbortExit, hp, ho, hq, ha] at he <;> subst he <;>
      exact ⟨rfl, by simp [State.distance, State.call, ho, hp, hq]⟩
  | digestBoundary hp ho hq ha =>
    simp [exec, execHsDigestRound, hp, ho, hq, ha] at he; subst he
    exact ⟨by simp [State.sameOutside, ha], by simp [State.distance, ho, hp, hq]⟩
  | digestSend hp ho hq =>
    simp only [exec, execHsDigestRound, hp, ho, hq] at he
    split at he <;> cases he
    exact ⟨by rw [← hp, ← hq]; rfl, by simp [State.distance, State.call, ho, hp, hq]⟩
  | digestGap hp ho hq => simp [State.atRequest, ho, hq, hp] at hr
  | digestEval hp ho hq =>
    simp only [exec, execHsEvalDigest, hp, ho, hq] at he
    split at he <;> cases he
    · exact ⟨rfl, by simp [State.distance, ho, hp, hq]⟩
    · exact ⟨rfl, by simp [State.distance, ho, hp, hq]⟩
  | lengthBoundary hp ho hq ha =>
    simp [exec, execHsLengthRound, hp, ho, hq, ha] at he; subst he
    exact ⟨by simp [State.sameOutside, ha], by simp [State.distance, ho, hp, hq]⟩
  | lengthSend hp ho hq =>
    simp only [exec, execHsLengthRound, hp, ho, hq] at he; cases he
    exact ⟨by rw [← hp, ← hq]; rfl, by simp [State.distance, State.call, ho, hp, hq]⟩
  | lengthGap hp ho hq => simp [State.atRequest, ho, hq, hp] at hr
  | lengthEval hp ho hq =>
    simp only [exec, execHsEvalLength, hp, ho, hq] at he
    split at he <;> cases he
    · exact ⟨rfl, by simp [State.distance, ho, hp, hq]⟩
    · exact ⟨rfl, by simp [State.distance, ho, hp, hq]⟩
  | complete hp ho hq _ =>
    simp only [exec, execBteExit, hp, ho, hq] at he; cases he
    exact ⟨rfl, by simp [State.distance, ho, hp, hq]⟩
  | window hp ho hq _ _ =>
    simp only [exec, execBteWindow, hp, ho, hq] at he; cases he
    rw [← hp, ← ho, ← hq]
    refine ⟨State.sameOutside_trans (t := { s with wbase := s.cursor, wsent := false, wSlot := 0 }) rfl (State.seekSlot_outside _), ?_⟩
    rcases State.seekSlot_cases { s with wbase := s.cursor, wsent := false, wSlot := 0 } with ⟨-, -, e⟩ | ⟨-, h, -⟩ | ⟨-, -, e⟩
    · rw [e]; simp [State.distance, ho, hp, hq]
    · cases h
    · rw [e]; simp [State.distance, ho, hp, hq]
  | slot hp ho hq =>
    simp only [exec, execBteWindow, hp, ho, hq] at he
    split at he <;> cases he
    exact ⟨by rw [← hp, ← hq]; rfl, by simp [State.distance, State.call, ho, hp, hq]⟩
  | report hp ho hq =>
    simp [State.atEmit, hp, ho, hq] at hm
    simp [exec, execPrReport, hp, ho, hq, hm] at he; subst he
    exact ⟨rfl, by simp [State.distance, ho, hp, hq]⟩
  | flush hp ho hq hf => simp [State.atEmit, hp, ho, hq, hf] at hm
  | exit hp ho hq hf =>
    simp [exec, execBteExit, hp, ho, hq, hf] at he; subst he
    exact ⟨rfl, by simp [State.distance, State.call, ho, hp, hq]⟩
  | poll hp ho hq =>
    rcases hq with hq | hq <;> simp [exec, execRxPoll, ho, hq] at he <;> subst he <;> refine ⟨rfl, ?_⟩ <;>
      rcases hx hp with hp | hp | hp <;> simp [State.distance, State.call, ho, hp, hq]
  | send hp ho hs hq =>
    rcases hq with hq | hq <;> simp [State.atRequest, ho, hq] at hr <;> simp only [exec, execLsSend, ho, hq, hr] at he <;> cases he
    · exact ⟨rfl, by simp [State.distance, takeException, State.startRecovery, ho, hq]⟩
    · rcases s.sendReturn_cases with ⟨h, e⟩ | ⟨h, e⟩ <;> rw [e]
      · exact ⟨rfl, by simp [State.distance, ho, hq, h]⟩
      · refine ⟨rfl, ?_⟩
        rcases hx hp with hp | hp | hp <;> simp [State.distance, ho, hq, hp]
  | recv hp ho hs hq =>
    simp [State.atRequest, ho, hq] at hr
    simp only [exec, execLsRecv, ho, hq, hr] at he; cases he
    exact ⟨rfl, by simp [State.distance, takeException, State.startRecovery, ho, hq]⟩
  | sendRecover hp ho hs hq =>
    rcases hq with hq | hq | hq <;> simp [State.atRequest, ho, hq] at hr
    simp only [exec, execLsRecover, ho, hq, hr] at he; cases he
    exact ⟨rfl, by simp [State.distance, State.channelLost, ho, hq]⟩
  | recvRecover hp ho hs hq =>
    rcases hq with hq | hq | hq <;> simp [State.atRequest, ho, hq] at hr
    simp only [exec, execLsRecover, ho, hq, hr] at he; cases he
    exact ⟨rfl, by simp [State.distance, State.channelLost, ho, hq]⟩
  | close hp ho hs hq =>
    simp [State.atRequest, ho, hq] at hr
    simp only [exec, execLsClose, ho, hr] at he; cases he
    rcases s.closeReturn_cases with ⟨h1, h2, e⟩ | ⟨-, e⟩ <;> rw [e]
    · exact ⟨rfl, by simp [State.distance, ho]⟩
    · exact ⟨rfl, by simp [State.distance, ho]⟩

/-- An internal computation from one state to another: selected operations, one after the other, none of which makes an atomic
step. -/
inductive State.Computes : State → State → Prop
  | refl (s : State) : State.Computes s s
  | line {s t u : State} {i : Instr} (hc : s.computing = true) (hs : s.Selects i) (he : exec i s = .next t)
      (h : State.Computes t u) : State.Computes s u

/-- What settle does, if it answers a next state. -/
theorem State.computes_of_settle {n : Nat} {s t : State} (h : s.settle n = .next t) : s.Computes t := by
  induction n generalizing s with
  | zero => cases h; exact .refl _
  | succ n ih =>
    unfold State.settle at h
    split at h
    · rename_i hc
      split at h
      · rename_i i hi
        obtain ⟨u, he, hu⟩ := andThen_eq_next.1 h
        exact .line hc (State.selects_of_selected hi) he (ih hu)
      · cases h
    · cases h; exact .refl _

/-- An internal computation writes only control state, TXF, the flags and the link state. -/
theorem State.Computes.outside {s t : State} (h : s.Computes t) : s.sameOutside t := by
  induction h with
  | refl => exact State.sameOutside_refl _
  | line hc hs he _ ih => exact State.sameOutside_trans (computing_exec hc hs he).1 ih

theorem State.distance_le (s : State) : s.distance ≤ 6 := by
  unfold State.distance
  repeat' split
  all_goals omega

/-- settle runs to the end of the internal computation. -/
theorem State.settled {n : Nat} {s t : State} (hn : s.distance ≤ n) (h : s.settle (n + 1) = .next t) : t.computing = false := by
  induction n generalizing s with
  | zero =>
    unfold State.settle at h
    split at h
    · rename_i hc
      split at h
      · rename_i i hi
        obtain ⟨u, he, -⟩ := andThen_eq_next.1 h
        have := (computing_exec hc (State.selects_of_selected hi) he).2
        omega
      · cases h
    · cases h; simp_all
  | succ n ih =>
    unfold State.settle at h
    split at h
    · rename_i hc
      split at h
      · rename_i i hi
        obtain ⟨u, he, hu⟩ := andThen_eq_next.1 h
        have := (computing_exec hc (State.selects_of_selected hi) he).2
        exact ih (by omega) hu
      · cases h
    · cases h; simp_all

theorem State.settleSteps_settled {s t : State} (h : s.settle settleSteps = .next t) : t.computing = false :=
  State.settled (n := 7) (by have := s.distance_le; omega) h

@[simp] theorem State.settle_of_not_computing {n : Nat} {s : State} (h : s.computing = false) : s.settle n = .next s := by
  cases n <;> simp [State.settle, h]

/-- Enough steps are enough: more change nothing. -/
theorem State.settle_enough {n : Nat} {s : State} (hn : s.distance ≤ n) : s.settle (n + 1) = s.settle (n + 2) := by
  induction n generalizing s with
  | zero =>
    cases hc : s.computing with
    | false => simp [hc]
    | true =>
      rw [State.settle, State.settle]
      simp only [hc, if_true]
      cases hi : s.selected with
      | error e => rfl
      | ok i =>
        simp only
        cases he : exec i s with
        | next u =>
          have := (computing_exec hc (State.selects_of_selected hi) he).2
          omega
        | fault f => rfl
        | refused r => rfl
  | succ n ih =>
    cases hc : s.computing with
    | false => simp [hc]
    | true =>
      rw [State.settle, State.settle]
      simp only [hc, if_true]
      cases hi : s.selected with
      | error e => rfl
      | ok i =>
        simp only
        cases he : exec i s with
        | next u =>
          have := (computing_exec hc (State.selects_of_selected hi) he).2
          exact ih (by omega)
        | fault f => rfl
        | refused r => rfl

/-- A line of internal computation executed first leaves the rest of it to do. -/
theorem State.settle_line {s : State} {i : Instr} (hc : s.computing = true) (hi : s.selected = .ok i) :
    s.settle settleSteps = andThen (exec i s) (State.settle settleSteps) := by
  have h8 : s.settle settleSteps = andThen (exec i s) (State.settle 7) := by
    unfold settleSteps
    rw [State.settle, if_pos hc, hi]
  rw [h8]
  generalize he : exec i s = o
  cases o with
  | next u =>
    have := (computing_exec hc (State.selects_of_selected hi) he).2
    have h6 := s.distance_le
    exact State.settle_enough (s := u) (n := 6) (by omega)
  | fault f => simp only [andThen]
  | refused r => simp only [andThen]

/-! ### The cases of a step -/

/-- THE CASES OF A STEP that answers a next state, on the environment's next turn: a START or ABORT command; another host access;
the reset; or the block's turn: it computes to the end and then stands still or lets the turn pass by, or runs the operation it
fetches, with a turn that only gave time taken off. -/
theorem step_cases {s t : State} (h : step s = .next t) :
    let d := s.drawTurn
    (∃ v rest i, d.script = .host (.cmd v) :: rest ∧ decodeCommand v = .ok i ∧ exec i { d with script := rest } = .next t) ∨
    (∃ a rest, d.script = .host a :: rest ∧ hostAccess a { d with script := rest } = .next t) ∨
    (∃ rest, d.script = .reset :: rest ∧ t = State.hardReset { d with script := rest }) ∨
    ∃ w, s.blockTurn = true ∧ d.settle settleSteps = .next w ∧ d.Computes w ∧ w.computing = false ∧
      ((t = w ∨ ∃ x rest, w.script = x :: rest ∧ t = { w with script := rest }) ∨
       ∃ u i, (u = w ∨ w.atEmit = true ∧ ∃ x rest, w.script = x :: rest ∧ u = { w with script := rest }) ∧
        u.phase.atRest = false ∧ u.blockFetch = .ok i ∧ exec i u = .next t) := by
  intro d
  have hserve : ∀ {u t : State}, u.serve = .next t →
      (t = u ∨ ∃ x rest, u.script = x :: rest ∧ t = { u with script := rest }) ∨
        ∃ i, u.phase.atRest = false ∧ u.blockFetch = .ok i ∧ exec i u = .next t := by
    intro u t h
    unfold State.serve at h
    split at h
    · cases h
      rcases u.dropReply_cases with e | ⟨r, rest, hs, e⟩
      · exact .inl (.inl e)
      · exact .inl (.inr ⟨_, rest, hs, e⟩)
    · rename_i hr
      split at h
      · rename_i i hi
        exact .inr ⟨i, by simpa using hr, hi, h⟩
      · cases h
  have hblock : s.blockTurn = true → andThen (d.settle settleSteps) State.serve = .next t →
      ∃ w, s.blockTurn = true ∧ d.settle settleSteps = .next w ∧ d.Computes w ∧ w.computing = false ∧
      ((t = w ∨ ∃ x rest, w.script = x :: rest ∧ t = { w with script := rest }) ∨
       ∃ u i, (u = w ∨ w.atEmit = true ∧ ∃ x rest, w.script = x :: rest ∧ u = { w with script := rest }) ∧
        u.phase.atRest = false ∧ u.blockFetch = .ok i ∧ exec i u = .next t) := by
    intro hb h
    obtain ⟨w, hw, ht⟩ := andThen_eq_next.1 h
    refine ⟨w, hb, hw, State.computes_of_settle hw, State.settleSteps_settled hw, ?_⟩
    rcases hserve ht with h | ⟨i, h1, h2, h3⟩
    · exact .inl h
    · exact .inr ⟨w, i, .inl rfl, h1, h2, h3⟩
  have htime : ∀ x rest, d.script = x :: rest → s.blockTurn = true →
      (if d.computing = true then andThen (d.settle settleSteps) fun t => .next t.pop else d.pop.giveTime) = .next t →
      ∃ w, s.blockTurn = true ∧ d.settle settleSteps = .next w ∧ d.Computes w ∧ w.computing = false ∧
      ((t = w ∨ ∃ x rest, w.script = x :: rest ∧ t = { w with script := rest }) ∨
       ∃ u i, (u = w ∨ w.atEmit = true ∧ ∃ x rest, w.script = x :: rest ∧ u = { w with script := rest }) ∧
        u.phase.atRest = false ∧ u.blockFetch = .ok i ∧ exec i u = .next t) := by
    intro x rest hd hb h
    split at h
    · obtain ⟨w, hw, ht⟩ := andThen_eq_next.1 h
      have hc := State.computes_of_settle hw
      have hs : w.script = x :: rest := by rw [hc.outside]; exact hd
      cases ht
      exact ⟨w, hb, hw, hc, State.settleSteps_settled hw, .inl (.inr ⟨x, rest, hs, by simp [State.pop, hs]⟩)⟩
    rename_i hn
    have hn : d.computing = false := by simpa using hn
    have hp : d.pop = { d with script := rest } := by simp [State.pop, hd]
    refine ⟨d, hb, State.settle_of_not_computing hn, .refl d, hn, ?_⟩
    rw [hp] at h
    unfold State.giveTime at h
    split at h
    · rename_i he
      have hna : ({ d with script := rest } : State).phase.atRest = false := by
        cases hq : d.phase <;> simp [State.atEmit, hq, Phase.atRest] at he ⊢
      unfold State.serve at h
      simp only [hna, if_false, Bool.false_eq_true] at h
      split at h
      · rename_i i hi
        exact .inr ⟨_, i, .inr ⟨he, x, rest, hd, rfl⟩, hna, hi, h⟩
      · cases h
    · cases h
      exact .inl (.inr ⟨x, rest, hd, rfl⟩)
  have hstep : d.takeTurn = .next t := h
  unfold State.takeTurn at hstep
  split at hstep
  · rename_i a rest hs
    have hp : d.pop = { d with script := rest } := by simp [State.pop, hs]
    rw [hp] at hstep
    cases a with
    | cmd v =>
      simp only [State.serveHost] at hstep
      split at hstep
      · rename_i i hi
        exact .inl ⟨v, rest, i, hs, hi, hstep⟩
      · exact .inr (.inl ⟨_, rest, hs, hstep⟩)
    | write w => exact .inr (.inl ⟨_, rest, hs, hstep⟩)
    | read r => exact .inr (.inl ⟨_, rest, hs, hstep⟩)
    | readNumber n => exact .inr (.inl ⟨_, rest, hs, hstep⟩)
    | readImage x => exact .inr (.inl ⟨_, rest, hs, hstep⟩)
    | strayWrite n => exact .inr (.inl ⟨_, rest, hs, hstep⟩)
  · rename_i rest hs
    have hp : d.pop = { d with script := rest } := by simp [State.pop, hs]
    rw [hp] at hstep
    cases hstep
    exact .inr (.inr (.inl ⟨rest, hs, rfl⟩))
  · rename_i rest hs
    exact .inr (.inr (.inr (htime _ rest hs (by unfold State.blockTurn; rw [show s.drawTurn.script = _ from hs]) hstep)))
  · rename_i rest hs
    exact .inr (.inr (.inr (htime _ rest hs (by unfold State.blockTurn; rw [show s.drawTurn.script = _ from hs]) hstep)))
  · rename_i r rest hs
    exact .inr (.inr (.inr (hblock (by unfold State.blockTurn; rw [show s.drawTurn.script = _ from hs]) hstep)))
  · rename_i hs
    exact .inr (.inr (.inr (hblock (by unfold State.blockTurn; rw [show s.drawTurn.script = _ from hs]) hstep)))

/-- WHAT A STEP KEEPS: a property that no turn drawn or taken off, no command, no other host access, no reset, no selected operation
and no received frame breaks. -/
theorem step_keeps {P : State → Prop} (turns : ∀ s l n, P s → P { s with script := l, asked := n })
    (command : ∀ s t v i, P s → decodeCommand v = .ok i → exec i s = .next t → P t)
    (host : ∀ s t a, P s → hostAccess a s = .next t → P t) (reset : ∀ s, P s → P s.hardReset)
    (selected : ∀ s t i, P s → s.Selects i → exec i s = .next t → P t)
    (frame : ∀ s t m, P s → receiveFrame m s = .next t → P t) {s t : State} (hs : P s) (h : step s = .next t) : P t := by
  have hd : P s.drawTurn := by rw [s.drawTurn_frame]; exact turns s _ _ hs
  have hc : ∀ {u w : State}, u.Computes w → P u → P w := by
    intro u w hc
    induction hc with
    | refl => exact id
    | line _ hs he _ ih => exact fun hu => ih (selected _ _ _ hu hs he)
  have pop : ∀ (u : State) rest, P u → P { u with script := rest } := fun u rest hu => turns u rest u.asked hu
  rcases step_cases h with ⟨v, rest, i, -, hi, he⟩ | ⟨a, rest, -, he⟩ | ⟨rest, -, rfl⟩ | ⟨w, -, -, hw, -, hl⟩
  · exact command _ t v i (pop _ rest hd) hi he
  · exact host _ t a (pop _ rest hd) he
  · exact reset _ (pop _ rest hd)
  · have hw := hc hw hd
    rcases hl with (rfl | ⟨x, rest, -, rfl⟩) | ⟨u, i, hu, -, hf, he⟩
    · exact hw
    · exact pop _ rest hw
    · have hu : P u := by
        rcases hu with rfl | ⟨-, x, rest, -, rfl⟩
        · exact hw
        · exact pop _ rest hw
      rcases State.blockFetch_cases hf with hs | ⟨r, rest, f, -, -, -, hd⟩
      · exact selected u t i hu hs he
      · rw [exec_of_decodeFrame hd] at he
        exact frame u t _ hu he

/-! ### A step, turn by turn -/

@[simp] theorem State.pop_cons {s : State} {x : Turn} {rest : List Turn} (h : s.script = x :: rest) :
    s.pop = { s with script := rest } := by
  simp [State.pop, h]

/-- The host's turn. -/
theorem step_host {s : State} {a : HostAccess} {rest : List Turn} (h : s.script = .host a :: rest) :
    step s = State.serveHost a { s with script := rest } := by
  simp only [step, stepOnce, State.drawTurn_cons h (by simp), State.takeTurn, h, State.pop_cons h]

/-- The reset input. -/
theorem step_reset {s : State} {rest : List Turn} (h : s.script = .reset :: rest) :
    step s = .next (State.hardReset { s with script := rest }) := by
  simp only [step, stepOnce, State.drawTurn_cons h (by simp), State.takeTurn, h, State.pop_cons h]

/-- An answer. -/
theorem step_reply {s : State} {r : Reply} {rest : List Turn} (h : s.script = .reply r :: rest) :
    step s = andThen (s.settle settleSteps) State.serve := by
  simp only [step, stepOnce, State.drawTurn_cons h (by simp), State.takeTurn, h]

/-- Silence. -/
theorem step_silent {s : State} (h : s.script = []) (hl : s.loop = []) :
    step s = andThen (s.settle settleSteps) State.serve := by
  simp only [step, stepOnce, State.drawTurn_nil h hl, State.takeTurn, h]

/-- Time alone, before an atomic step: the block computes up to it. -/
theorem step_tick_computing {s : State} {rest : List Turn} (h : s.script = .tick :: rest) (hc : s.computing = true) :
    step s = andThen (s.settle settleSteps) fun t => .next t.pop := by
  simp only [step, stepOnce, State.drawTurn_cons h (by simp), State.takeTurn, h, hc, if_true]

/-- Time alone, at an atomic step: an Emit is made. -/
theorem step_tick_settled {s : State} {rest : List Turn} (h : s.script = .tick :: rest) (hc : s.computing = false) :
    step s = State.giveTime { s with script := rest } := by
  simp only [step, stepOnce, State.drawTurn_cons h (by simp), State.takeTurn, h, hc, if_false, Bool.false_eq_true, State.pop_cons h]

/-- In a run, at its atomic step, the block runs what it fetches. -/
theorem State.serve_running {s : State} {i : Instr} (hr : s.phase.atRest = false) (hi : s.blockFetch = .ok i) :
    s.serve = exec i s := by
  simp [State.serve, hr, hi]

/-- At rest the block makes no atomic step. -/
theorem State.computing_atRest {s : State} (h : s.phase.atRest = true) : s.computing = false := by
  simp [State.computing, h]

/-- A block with a receive outstanding is at its atomic step. -/
theorem State.computing_receiving {s : State} (h : s.receiving = true) : s.computing = false := by
  obtain ⟨-, ho, hq, -, c, hc⟩ := State.receiving_iff.1 h
  simp [State.computing, State.atRequest, ho, hq, hc]

/-- With no frame at hand the block fetches what its control state selects. -/
theorem State.blockFetch_selected {s : State}
    (h : ∀ r rest f, s.script = .reply r :: rest → s.receiving = true → r.received ≠ .frame f) :
    s.blockFetch = s.selected := by
  unfold State.blockFetch
  split
  · rename_i r rest hs
    split
    · rename_i hr
      split
      · rename_i f hf
        exact absurd hf (h r rest f hs hr)
      all_goals rfl
    · rfl
  all_goals rfl

/-- A host access that answers a next state writes a register outside a run, records a read, or does nothing. -/
theorem hostAccess_cases {a : HostAccess} {s t : State} (h : hostAccess a s = .next t) :
    (∃ w, a = .write w ∧ t = s.hostWrite w) ∨ (∃ r v, t = s.log (.hostRead r v)) ∨
      (∃ x v, t = s.log (.hostReadImage x v)) ∨ t = s := by
  cases a <;> simp only [hostAccess] at h
  case cmd v => cases h; exact .inr (.inr (.inr rfl))
  case write w => cases h; exact .inl ⟨w, rfl, rfl⟩
  case read r => cases h; exact .inr (.inl ⟨_, _, rfl⟩)
  case readNumber n =>
    split at h
    · cases h; exact .inr (.inl ⟨_, _, rfl⟩)
    · cases h
  case readImage x =>
    split at h
    · cases h; exact .inr (.inr (.inl ⟨_, _, rfl⟩))
    · cases h
  case strayWrite n => split at h <;> cases h

/-- The commands a CMD value is. -/
theorem decodeCommand_ok {v : BitVec 2} {i : Instr} (h : decodeCommand v = .ok i) : i = .start ∨ i = .abort := by
  unfold decodeCommand at h
  split at h <;> cases h <;> simp

end Sys2Proof.Machine
end

