-- ==== Sys2Proof/Tests/Slice0.lean ====
section
/-!
SUPPORT. Small tests: the well-formedness smoke test, decoding of words written out from the spec's encodings, at most two tests
of each operation, and a witness of the hypotheses of every obligation that has hypotheses. Expected values are those of
spec/95_test_vectors.md (named V-…, or P1 to P8) or worked out from the rule named.
-/
namespace Sys2Proof.Tests
open Sys2Proof.Machine

/-! ### Small states -/

/-- The configuration of the programs of spec/95_test_vectors.md part 3. -/
def cfg600 : Cfg where
  baseId := 0x600
  bitrate := 500000
  presentBase := true
  presentRate := true
  bus := { token := 0 }
  window := 2
  gran := 1024
  tDigestGap := { num := 20, den := 1000 }
  tLengthGap := { num := 10, den := 1000 }
  tHsRx := { num := 1, den := 10 }
  tPace := { num := 1, den := 3817 }
  tDrain := { num := 0, den := 1 }

/-- P1's inputs loaded: ten image bytes 0x10 to 0x19; a digest with distinct chunks. -/
def ready : State :=
  { State.reset with
    cfg := cfg600, imgLen := 10, digest := { c0 := 0x33221100, c1 := 0x77665544, c2 := 0xDDCCBBAA, c3 := 0xFFEEDDCC }
    img := [(0, 0x10), (1, 0x11), (2, 0x12), (3, 0x13), (4, 0x14), (5, 0x15), (6, 0x16), (7, 0x17), (8, 0x18), (9, 0x19)] }

/-- The channel of the tests. -/
def chan7 : Handle := { token := 7 }

/-- A run in some control state, with a channel held. -/
def inRun (p : Phase) (q : PStep) (o : Op := .noOp) (r : OpStep := .tryPort) (turns : List Turn := []) : State :=
  { ready with
    phase := p, pstep := q, op := o, opstep := r, link := .up, chan := some chan7, blockcount := 2, script := turns
    trace := [.opened cfg600.bus cfg600.bitrate chan7] }

/-- The same with the channel lost. -/
def noChannel (s : State) : State :=
  { s with link := .down, chan := none, trace := [.closed chan7, .opened cfg600.bus cfg600.bitrate chan7] }

/-- A run that is opening. -/
def opening (o : Op) (r : OpStep) (l : Link) (turns : List Turn := []) : State :=
  { ready with phase := .opening, op := o, opstep := r, link := l, blockcount := 2, script := turns }

/-- An answer that gives channel 8 and says Ok. -/
def good : Reply := { opened := some { token := 8 }, sent := true }

/-- An answer of failures; a receive gets nothing. -/
def bad : Reply := {}

/-- An answer with a receive error. -/
def recvErr : Reply := { received := .err }

/-- An answer with a whole frame. -/
def got (id : Ident) (p : Payload) : Reply := { received := .frame { id := id, payload := p, len := 8 } }

/-- P1 step 18: PROGRESS(1,1,1;0). -/
def written0 : Reply := got 0x602 0x0000000000000007

/-- V-D9: an identifier of no FUTP class. -/
def foreign : Reply := got 0x123 0x04030201EFBEADDE

/-- Part of the next state, if there is one. -/
def seen {α : Type} (f : State → α) : Host.Outcome State Fault Refusal → Option α
  | .next s => some (f s)
  | .fault _ => none
  | .refused _ => none

/-- The refusal, if there is one. -/
def refusal : Host.Outcome State Fault Refusal → Option Refusal
  | .refused r => some r
  | .next _ => none
  | .fault _ => none

/-! ### Well-formedness: every check refuses an ill-formed term and admits the bound -/

theorem test_wf_infoDig : (Instr.infoDig 4 0).wellFormed = false ∧ (Instr.infoDig 3 0).wellFormed = true := by decide
theorem test_wf_encInfoDig : (Instr.encInfoDig 4 0).wellFormed = false ∧ (Instr.encInfoDig 3 0).wellFormed = true := by decide
theorem test_wf_encData :
    (Instr.encData 0x4000000 0).wellFormed = false ∧ (Instr.encData 0x3FFFFFF 0).wellFormed = true := by decide
theorem test_wf_blkFetch :
    (Instr.blkFetch 0x4000000).wellFormed = false ∧ (Instr.blkFetch 0x3FFFFFF).wellFormed = true := by decide
theorem test_wf_curUpdate :
    (Instr.curUpdate (-2) true 0).wellFormed = false ∧ (Instr.curUpdate (-1) true 0).wellFormed = true := by decide

/-! ### Decoding of words written out from the encodings -/

/-- V-E2 and V-D1: id 0x9600, index bits 25..8 = 0x12, check byte 0x34, data bytes A1 to A7. -/
theorem test_decode_data :
    decodeFrame 0x600 (ofFrameWord 0x00009600A7A6A5A4A3A2A134).received = .ok (.data 0x1234 0xA7A6A5A4A3A2A1) := by decide
/-- V-E3: the largest index. -/
theorem test_decode_data_last :
    decodeFrame 0x600 (ofFrameWord 0x1FFFFE00FFFFFFFFFFFFFFFF).received = .ok (.data 0x3FFFFFF 0xFFFFFFFFFFFFFF) := by decide
/-- V-E4. -/
theorem test_decode_infoLen :
    decodeFrame 0x600 (ofFrameWord 0x000006010000000000000A00).received = .ok (.infoLen 10) := by decide
/-- V-E5. -/
theorem test_decode_infoDig :
    decodeFrame 0x600 (ofFrameWord 0x00000601000002DDCCBBAA01).received = .ok (.infoDig 2 0xDDCCBBAA) := by decide
/-- V-E6. -/
theorem test_decode_progress :
    decodeFrame 0x600 (ofFrameWord 0x000006020000000000000507).received = .ok (.progress true true true 5) := by decide
/-- V-D6 (length 5), V-D7, V-D8, V-D9, V-D10 and V-D11. -/
theorem test_decode_rejects :
    decodeFrame 0x600 { id := 0x602, payload := 0x0207, len := 5 } = .error (.decodeError .badLength) ∧
    decodeFrame 0x600 { id := 0x601, payload := 0x02, len := 8 } = .error (.decodeError .badType) ∧
    decodeFrame 0x600 { id := 0x601, payload := 0x0000040000000001, len := 8 } = .error (.decodeError .badChunkIndex) ∧
    decodeFrame 0x600 { id := 0x123, payload := 0x04030201EFBEADDE, len := 8 } = .error .notFutp ∧
    decodeFrame 0x600 { id := 0x123, payload := 0, len := 3 } = .error .notFutp ∧
    decodeFrame 0x600 { id := 0xE01, payload := 0, len := 8 } = .error .notFutp := by decide
/-- V-D12, V-D13, V-D14: baseId 0x7FF. -/
theorem test_decode_base7FF :
    decodeFrame 0x7FF { id := 0x800, payload := 0x0000030403020101, len := 8 } = .ok (.infoDig 3 0x04030201) ∧
    decodeFrame 0x7FF { id := 0x801, payload := 0x0000000000000104, len := 8 } = .ok (.progress false false true 1) ∧
    decodeFrame 0x7FF { id := 0xFFF, payload := 0x0807060504030201, len := 8 } = .ok (.data 0x101 0x08070605040302) := by decide
/-- R110: CMD values 0 to 3. -/
theorem test_decode_commands :
    decodeCommand 1 = .ok .start ∧ decodeCommand 2 = .ok .abort ∧ decodeCommand 0 = .error .ignoredCommand ∧
    decodeCommand 3 = .error .ignoredCommand := by decide
/-- The link supervisor's operations by their control codes (10_state.md R24, R26, 41_link.md R152 to R157). -/
theorem test_decode_link :
    decodeControl { phase := 1, op := 1 } = .ok .lsOpen ∧
      decodeControl { phase := 6, pstep := 1, op := 2, opstep := 4 } = .ok .lsSend ∧
    decodeControl { phase := 4, pstep := 4, op := 3 } = .ok .lsRecv ∧
    decodeControl { phase := 2, pstep := 1, op := 2, opstep := 3 } = .ok .lsRecover ∧
    decodeControl { phase := 6, pstep := 7, op := 4 } = .ok .lsClose ∧
      decodeControl { phase := 4, pstep := 4 } = .ok .rxPoll := by
  decide
/-- The phase procedures by their control codes (42_handshake.md R176, 43_transfer.md R198, 45_control.md R238). -/
theorem test_decode_phases :
    decodeControl { phase := 2, pstep := 2 } = .ok .hsDigestRound ∧ decodeControl { phase := 3 } = .ok .hsEvalDigest ∧
    decodeControl { phase := 4, pstep := 1 } = .ok .hsLengthRound ∧ decodeControl { phase := 4, pstep := 5 } = .ok .hsEvalLength ∧
    decodeControl { phase := 5 } = .ok .bteEnter ∧ decodeControl { phase := 6, pstep := 1 } = .ok .bteWindow ∧
    decodeControl { phase := 6, complete := true, abortReq := true } = .ok .bteExit ∧
    decodeControl { phase := 6, pstep := 6 } = .ok .prReport ∧
    decodeControl { phase := 6, pstep := 7, flushDue := true } = .ok .prFlush ∧
    decodeControl { phase := 6, abortReq := true } = .ok .abortExit := by decide
/-- Codes that select nothing. -/
theorem test_decode_reserved :
    decodeControl { phase := 0 } = .error .atRest ∧ decodeControl { phase := 11 } = .error .reservedPhase ∧
    decodeControl { phase := 6, op := 5 } = .error .reservedOp ∧
    decodeControl { phase := 1, op := 1, opstep := 5 } = .error .reservedOpstep := by decide
/-- A table word, read with CFG_BASE_ID = 0: id 0x800, check byte 0x01 is index 0x101. -/
theorem test_table_word :
    decodeTableWord 96 0x000008000000000000AB0001 = some (.data 0x101 0xAB00) ∧ decodeTableWord 8 2 = some .abort ∧
    decodeTableWord 8 4 = none ∧ decodeTableWord 96 (2 ^ 93) = none := by decide

/-! ### The operations -/

/-- P1 step 18 with other frames: a DATA or INFO frame is dropped and the drain goes on. -/
theorem test_data_dropped :
    seen (fun t => (t.pstep, t.op, t.cursor, t.fresh))
      (exec (.data 5 0) (inRun .transfer .rxTimed .recvOp .tryPort [.reply (got 0x600 5)]))
      = some (.rxDrain, .noOp, -1, ready.fresh) := by decide
theorem test_infoLen_dropped :
    seen (fun t => (t.pstep, t.op, t.fresh))
      (exec (.infoLen 10) (inRun .sendingLength .rxDrain .recvOp .tryPort [.reply (got 0x601 0xA00)]))
      = some (.rxDrain, .noOp, ready.fresh) := by decide
theorem test_infoDig_dropped :
    seen (fun t => (t.pstep, t.op, t.script)) (exec (.infoDig 1 9) (inRun .sendingDigest .rxTimed .recvOp .tryPort [.reply bad, .tick]))
      = some (.rxDrain, .noOp, [.tick]) := by decide
/-- P1 step 18: CURSOR -1 -> 0. -/
theorem test_progress_engine :
    seen (fun t => (t.cursor, t.pstep, t.fresh.valid))
      (exec (.progress true true true 0) (inRun .transfer .rxTimed .recvOp .tryPort [.reply written0]))
      = some (0, .rxDrain, false) := by decide
/-- P3 step 41: latched in FRESH, not taken into CURSOR. -/
theorem test_progress_handshake :
    seen (fun t => (t.cursor, t.fresh))
      (exec (.progress true true false 1) (inRun .sendingLength .rxDrain .recvOp .tryPort [.reply (got 0x602 0x103)]))
      = some (-1, { valid := true, rd := true, rl := true, wr := false, idx := 1 }) := by decide
/-- P1's START. -/
theorem test_start :
    seen (fun t => (t.phase, t.blockcount, t.err, t.cursor)) (exec .start ready) = some (.opening, 2, 0, -1) := by decide
/-- V-C9: base 0x800 and window 0 gives the earlier check's cause. -/
theorem test_start_refused :
    seen (fun t => (t.phase, t.err))
      (exec .start { ready with cfg := { cfg600 with baseId := 0x800, window := 0 } }) = some (.cfgError, 0x33) := by decide
/-- V-C12 and V-C11. -/
theorem test_abort :
    seen (·.abortReq) (exec .abort (inRun .transfer .send)) = some true ∧ seen (·.abortReq) (exec .abort ready) = some false := by
  decide
/-- V-B7. -/
theorem test_blockCount : seen (·.ret) (exec (.blockCount 0xFFFFFFFF) ready) = some (.count 613566757) := by decide
/-- V-B10: three image bytes, four zero bytes. -/
theorem test_blkFetch : seen (·.ret) (exec (.blkFetch 1) ready) = some (.block 0x00000000191817) := by decide
/-- V-E1. -/
theorem test_encData :
    seen (·.ret) (exec (.encData 0 0x16151413121110) ready) = some (.frame { id := 0x600, payload := 0x1615141312111000 }) := by
  decide
/-- V-E8: baseId 0x7FF, index 0x100. -/
theorem test_encData_corner :
    seen (·.ret) (exec (.encData 0x100 0) { ready with cfg := { cfg600 with baseId := 0x7FF } })
      = some (.frame { id := 0xFFF, payload := 0 }) := by decide
/-- V-E4b. -/
theorem test_encInfoLen :
    seen (·.ret) (exec (.encInfoLen 0xDEADBEEF) ready) = some (.frame { id := 0x601, payload := 0x000000DEADBEEF00 }) := by decide
/-- V-E5. -/
theorem test_encInfoDig :
    seen (·.ret) (exec (.encInfoDig 2 0xDDCCBBAA) ready) = some (.frame { id := 0x601, payload := 0x000002DDCCBBAA01 }) := by
  decide
/-- V-E6b. -/
theorem test_encProgress :
    seen (·.ret) (exec (.encProgress false false false 0xFFFFFFFF) ready)
      = some (.frame { id := 0x602, payload := 0x000000FFFFFFFF00 }) := by decide
/-- R128's examples. -/
theorem test_demux :
    seen (·.ret) (exec (.demux 0x9600) ready) = some (.kind .data) ∧
      seen (·.ret) (exec (.demux 0x9601) ready) = some (.kind .other) := by
  decide
/-- V-D2: padding is ignored. -/
theorem test_decode :
    seen (·.ret) (exec (.decode 0x601 0x090909DEADBEEF00 8) ready) = some (.message (.infoLen 0xDEADBEEF)) := by decide
/-- R131's example. -/
theorem test_decData :
    seen (·.ret) (exec (.decData 0x9600 0xA7A6A5A4A3A2A134) ready) = some (.message (.data 0x1234 0xA7A6A5A4A3A2A1)) := by decide
/-- R132's last example. -/
theorem test_decInfo :
    seen (·.ret) (exec (.decInfo 0x0000040000000001) ready) = some (.message (.decodeError .badChunkIndex)) := by decide
/-- R133's second example. -/
theorem test_decProgress :
    seen (·.ret) (exec (.decProgress 0xFFFFFF00000100FB) ready) = some (.message (.progress true true false 256)) := by decide
/-- R152's open, and P3 step 1: on Err no close. -/
theorem test_lsOpen :
    seen (fun t => (t.phase, t.chan, t.link)) (exec .lsOpen (opening .openOp .tryPort .closed [.reply good]))
      = some (.sendingDigest, some { token := 8 }, .up) := by decide
theorem test_lsOpen_fails :
    seen (fun t => (t.phase, t.opstep, t.link)) (exec .lsOpen (opening .openOp .tryPort .closed [.reply bad]))
      = some (.opening, .recClose, .closed) := by decide
/-- P1 step 17, and a send with LINK = DOWN: no request (P3 after step 51). -/
theorem test_lsSend :
    seen (fun t => (t.pstep, t.wsent, t.op)) (exec .lsSend (inRun .transfer .send .sendOp .tryPort [.reply good]))
      = some (.rxTimed, true, .noOp) := by decide
theorem test_lsSend_down :
    seen (fun t => (t.opstep, t.script)) (exec .lsSend (noChannel (inRun .transfer .send .sendOp .tryPort [.reply good])))
      = some (.recClose, [.reply good]) := by decide
/-- P3 step 12: nothing arrives, the round is evaluated; P3 step 48: an error starts the recovery. -/
theorem test_lsRecv :
    seen (fun t => (t.pstep, t.op)) (exec .lsRecv (inRun .sendingDigest .rxTimed .recvOp .tryPort [.reply bad]))
      = some (.eval, .noOp) := by decide
theorem test_lsRecv_err :
    seen (fun t => (t.pstep, t.op, t.opstep)) (exec .lsRecv (inRun .transfer .rxTimed .recvOp .tryPort [.reply recvErr]))
      = some (.rxTimed, .recvOp, .recClose) := by decide
/-- P3 step 14, and V-L2: the second failure of the initial open. -/
theorem test_lsRecover_close :
    seen (fun t => (t.link, t.chan, t.opstep, t.trace.head?)) (exec .lsRecover (inRun .sendingDigest .send .sendOp .recClose [.reply bad]))
      = some (.down, none, .recBringup, some (.closed chan7)) := by decide
theorem test_lsRecover_fails :
    seen (fun t => (t.phase, t.err, t.link, t.op)) (exec .lsRecover (opening .openOp .recOpen .down [.reply bad]))
      = some (.linkFailed, 0x11, .closed, .noOp) := by decide
/-- P1 step 24, and an abort at a boundary. -/
theorem test_lsClose :
    seen (fun t => (t.phase, t.link, t.chan)) (exec .lsClose (inRun .transfer .exit .closeOp .tryPort [.reply bad]))
      = some (.done, .closed, none) := by decide
theorem test_lsClose_abort :
    seen (fun t => (t.phase, t.link, t.err)) (exec .lsClose (inRun .sendingLength .boundary .closeOp .tryPort [.reply bad]))
      = some (.aborted, .closed, 0) := by decide
theorem test_rxPoll :
    seen (fun t => (t.op, t.pstep)) (exec .rxPoll (inRun .transfer .rxDrain)) = some (.recvOp, .rxDrain) := by decide
/-- P3 step 8: chunk 2 of the digest. -/
theorem test_hsDigestRound :
    seen (fun t => (t.txf, t.op)) (exec .hsDigestRound { inRun .sendingDigest .send with hsK := 2 })
      = some ({ id := 0x601, payload := 0x000002DDCCBBAA01 }, .sendOp) := by decide
/-- P1 step 9: after the fourth gap. -/
theorem test_hsDigestRound_gap :
    seen (fun t => (t.hsK, t.pstep, t.script)) (exec .hsDigestRound { inRun .sendingDigest .gap .noOp .tryPort [.reply bad] with hsK := 3 })
      = some (4, .rxTimed, []) := by decide
/-- P3 step 27: the fresher frame has rd = 0, no transition. -/
theorem test_hsEvalDigest :
    seen (fun t => (t.phase, t.digestOk, t.pstep))
      (exec .hsEvalDigest { inRun .sendingDigest .eval with fresh := { valid := true, rd := false, rl := true, wr := true, idx := 0 } })
      = some (.sendingDigest, false, .boundary) := by decide
theorem test_hsEvalDigest_confirmed :
    seen (fun t => (t.phase, t.pstep)) (exec .hsEvalDigest (inRun .digestConfirmed .eval)) = some (.sendingLength, .boundary) := by
  decide
/-- P1 step 12. -/
theorem test_hsLengthRound :
    seen (fun t => (t.txf, t.op)) (exec .hsLengthRound (inRun .sendingLength .send))
      = some ({ id := 0x601, payload := 0x0000000000000A00 }, .sendOp) := by decide
/-- P1 step 15: rl alone decides. -/
theorem test_hsEvalLength :
    seen (fun t => (t.phase, t.lengthOk))
      (exec .hsEvalLength { inRun .sendingLength .eval with fresh := { valid := true, rd := false, rl := true, wr := false, idx := 0 } })
      = some (.lengthConfirmed, true) := by decide
/-- P1 step 16. -/
theorem test_bteEnter :
    seen (fun t => (t.phase, t.cursor, t.evt)) (exec .bteEnter { inRun .lengthConfirmed .eval with cursor := 5 })
      = some (.transfer, -1, { delta := 0, confirmed := 0, total := 10 }) := by decide
/-- P1 step 20: DATA(1). -/
theorem test_bteWindow_send :
    seen (·.txf) (exec .bteWindow { inRun .transfer .send with wSlot := 1 })
      = some { id := 0x600, payload := 0x0000000019181701 } := by decide
/-- V-T14: overrun, no sendable candidate. -/
theorem test_bteWindow_overrun :
    seen (fun t => (t.pstep, t.wSlot, t.wbase)) (exec .bteWindow { inRun .transfer .boundary with cursor := 5 })
      = some (.rxTimed, 2, 5) := by decide
/-- V-T3 and V-T9. -/
theorem test_curUpdate :
    seen (·.ret) (exec (.curUpdate (-1) false 0) ready) = some (.cursor (-1)) ∧
    seen (·.ret) (exec (.curUpdate (-1) true 0xFFFFFFFF) ready) = some (.cursor 0xFFFFFFFF) := by decide
theorem test_curUpdate_lower : seen (·.ret) (exec (.curUpdate 7 true 3) ready) = some (.cursor 7) := by decide
theorem test_bteExit : seen (·.pstep) (exec .bteExit { inRun .transfer .boundary with cursor := 1 }) = some .exit := by decide
/-- R221 with G = 2: two blocks since the last event. -/
theorem test_prReport :
    seen (fun t => (t.evt, t.lastrep, t.pstep))
      (exec .prReport { inRun .transfer .report with cfg := { cfg600 with gran := 2 }, cursor := 1 })
      = some ({ delta := 14, confirmed := 14, total := 10 }, 1, .boundary) := by decide
/-- P1 step 22: below the granularity. -/
theorem test_prReport_quiet :
    seen (fun t => (t.lastrep, t.pstep, t.trace.length)) (exec .prReport { inRun .transfer .report with cursor := 1 })
      = some (-1, .boundary, 1) := by decide
/-- P1 step 23. -/
theorem test_prFlush :
    seen (fun t => (t.evt, t.lastrep)) (exec .prFlush { inRun .transfer .exit with cursor := 1 })
      = some ({ delta := 14, confirmed := 14, total := 10 }, 1) := by decide
/-- V-C7 and V-C8. -/
theorem test_configCheck :
    seen (·.ret) (exec .configCheck { ready with imgLen := 469762048 }) = some (.check none) ∧
    seen (·.ret) (exec .configCheck { ready with imgLen := 469762049 }) = some (.check (some .imageTooLarge)) := by decide
theorem test_abortExit :
    seen (·.op) (exec .abortExit { inRun .transfer .boundary with abortReq := true }) = some .closeOp ∧
    refusal (exec .abortExit (inRun .transfer .boundary)) = some .notSelected := by decide

/-! ### Steps -/

/-- A table word placed where the next step fetches it: START from reset ends in CFG_ERROR (V-C1). -/
theorem test_step_start :
    seen (fun t => (t.phase, t.err)) (step (State.reset.withFetchWord 8 1)) = some (.cfgError, 0x31) := by decide
/-- A PROGRESS frame for CFG_BASE_ID = 0x600, received in the engine. -/
theorem test_step_frame :
    seen (·.cursor) (step ((ready).withFetchWord 96 0x000006020000000000000507)) = some 5 := by decide
/-- V-T18: complete and aborted at once: completion first. -/
theorem test_step_complete :
    seen (·.pstep) (step { inRun .transfer .boundary with cursor := 1, abortReq := true }) = some .exit := by decide
/-- V-C15: a host write in a run is ignored. -/
theorem test_step_locked :
    seen (fun t => (t.imgLen, t.script)) (step (inRun .transfer .send .noOp .tryPort [.host (.write (.imgLen 3))])) = some (10, []) := by
  decide

/-- P6 step 23 and V-T18's counterpart: an ABORT that falls after the atomic step and before the boundary is honoured at it. The
computation from REPORT to LS.CLOSE and the close are one step. -/
theorem test_step_abort_at_boundary :
    seen (fun t => (t.phase, t.trace.head?)) (run 2 { inRun .transfer .report .noOp .tryPort [.host (.cmd 2), .reply bad] with cursor := 5 })
      = some (.aborted, some (.closed chan7)) := by decide
/-- R13, R173: DIGEST_CONFIRMED is passed inside the internal computation; the next the host can see is the send of the length. -/
theorem test_step_not_interleaved :
    seen (fun t => (t.phase, t.pstep, t.op, t.digestOk))
      (step { inRun .sendingDigest .eval .noOp .tryPort [.tick, .host (.read .status)] with
        fresh := { valid := true, rd := true, rl := false, wr := false, idx := 0 } })
      = some (.sendingLength, .send, .sendOp, true) := by decide
/-- Log 3: a host access between the computation and an Emit reads LENGTH_CONFIRMED (STATUS 0xD5); time alone after it
makes the Emit. -/
theorem test_step_read_before_emit :
    (let s : State := { inRun .sendingLength .eval .noOp .tryPort [.tick, .host (.read .status), .tick] with
      digestOk := true, fresh := { valid := true, rd := true, rl := true, wr := false, idx := 0 } }
     (seen (fun t => (t.phase, t.trace.head?)) (run 2 s), seen (fun t => (t.phase, t.trace.head?)) (run 3 s)))
      = (some (.lengthConfirmed, some (.hostRead .status (.word 0xD5))),
          some (.transfer, some (.emitted { delta := 0, confirmed := 0, total := 10 }))) := by decide
/-- R303: the environment repeats a frame; three steps take three. -/
theorem test_step_drain :
    seen (fun t => (t.pstep, t.trace.length)) (run 3 { inRun .transfer .rxDrain .recvOp with loop := [.reply foreign] })
      = some (.rxDrain, 4) := by decide
/-- 60_exceptions.md R268: PSTEP and CHAN are read by name. -/
theorem test_step_read :
    seen (fun t => t.trace.take 2) (run 2 (inRun .transfer .report .noOp .tryPort [.host (.read .pstep), .host (.read .chan)]))
      = some [.hostRead .chan (.channel (some chan7)), .hostRead .pstep (.word 6)] := by decide

/-! ### Witnesses: a concrete state and operands for the hypotheses of each obligation, clause by clause at boundary values -/

theorem legal600 : legalBase 0x600 := by unfold legalBase; decide
/-- The largest legal base. -/
theorem legal7FF : legalBase 0x7FF := by unfold legalBase; decide

theorem witness_ResetTurnAbandonsRun :
    let s := inRun .transfer .send .sendOp .retry [.reset, .tick]
    s.script = .reset :: [.tick] ∧ s.phase.atRest = false := by decide

/-- At rest in IDLE and in each terminal phase, with each of the three scripts. -/
theorem witness_AtRestTakesNoStep :
    (∀ p ∈ [Phase.idle, .done, .aborted, .cfgError, .linkFailed], ({ ready with phase := p } : State).phase.atRest = true) ∧
    ready.script = [] ∧ ready.loop = [] ∧ ({ ready with script := [.tick] } : State).script = .tick :: [] ∧
    ({ ready with script := [.reply good] } : State).script = .reply good :: [] := by decide

theorem witness_StepRunsFetchedOperation_command :
    let s : State := { ready with script := [.host (.cmd 1)] }
    s.script = .host (.cmd 1) :: [] ∧ decode s.cfg.baseId (.command 1) = .ok .start := by decide
theorem witness_StepRunsFetchedOperation_frame :
    let s := inRun .transfer .rxTimed .recvOp .tryPort [.reply written0]
    s.script = .reply written0 :: [] ∧ s.receiving = true ∧ written0.received = .frame { id := 0x602, payload := 7, len := 8 } ∧
    decode s.cfg.baseId (.frame { id := 0x602, payload := 7, len := 8 }) = .ok (.progress true true true 0) := by decide
theorem witness_StepRunsFetchedOperation_foreign :
    let s := inRun .sendingLength .rxDrain .recvOp .tryPort [.reply foreign]
    s.script = .reply foreign :: [] ∧ s.receiving = true ∧
    foreign.received = .frame { id := 0x123, payload := 0x04030201EFBEADDE, len := 8 } ∧
    decode s.cfg.baseId (.frame { id := 0x123, payload := 0x04030201EFBEADDE, len := 8 }) = .error .notFutp := by decide
/-- An internal line before a silent environment, before an answer and before time alone. -/
theorem witness_StepRunsFetchedOperation_computing :
    (∀ l ∈ [[], [Turn.reply bad], [.tick]],
      let s := inRun .transfer .boundary .noOp .tryPort l
      s.computing = true ∧ s.drawTurn = s ∧ s.blockTurn = true ∧ decode s.cfg.baseId (.control s.controlCode) = .ok .bteWindow ∧
        seen (·.script) (s.settle settleSteps) = some l) ∧
    (exec .bteWindow (inRun .transfer .boundary) matches .next _) := by decide
/-- At a request, and at an Emit, with each turn of the block. -/
theorem witness_StepRunsFetchedOperation_control :
    (let s := inRun .transfer .send .sendOp
     s.computing = false ∧ s.phase.atRest = false ∧ decode s.cfg.baseId (.control s.controlCode) = .ok .lsSend ∧ s.script = [] ∧
       s.loop = []) ∧
    (let s := inRun .transfer .send .sendOp .tryPort [.reply good]
     s.computing = false ∧ decode s.cfg.baseId (.control s.controlCode) = .ok .lsSend ∧ s.script = .reply good :: [] ∧
       s.receiving = false) ∧
    (let s := inRun .lengthConfirmed .eval .noOp .tryPort [.tick, .tick]
     s.computing = false ∧ s.atEmit = true ∧ decode s.cfg.baseId (.control s.controlCode) = .ok .bteEnter ∧
       s.script = .tick :: [.tick]) ∧
    (let s := inRun .transfer .send .sendOp .tryPort [.tick]
     s.computing = false ∧ s.atEmit = false ∧ s.script = .tick :: []) := by decide
/-- The computation that ends: from EVAL through DIGEST_CONFIRMED to the send of the length. -/
theorem witness_StepRunsFetchedOperation_settle :
    let s : State := { inRun .sendingDigest .eval with fresh := { valid := true, rd := true, rl := false, wr := false, idx := 0 } }
    s.computing = true ∧ seen (·.computing) (s.settle settleSteps) = some false := by decide

theorem witness_OperationCodesDecodeBack :
    (Instr.infoDig 3 0xFFFFFFFF).wellFormed = true ∧ (Instr.infoDig 3 0xFFFFFFFF).format ≠ .function ∧
    Instr.prFlush.wellFormed = true ∧ Instr.prFlush.format ≠ .function ∧ Instr.abort.format ≠ .function := by decide

/-- The last chunk index, and a frame whose padding is zero. -/
theorem witness_FrameCodecRoundTrip :
    legalBase 0x7FF ∧ (3 : Byte).toNat ≤ 3 ∧
    decodeFrame 0x600 { id := 0x601, payload := 0x000003DDCCBBAA01, len := 8 } = .ok (.infoDig 3 0xDDCCBBAA) ∧
    paddingZero 0x000003DDCCBBAA01 (.infoDig 3 0xDDCCBBAA) := by
  refine ⟨legal7FF, by decide, by decide, ?_⟩
  unfold paddingZero payloadByte
  decide

theorem witness_DataIndexPacking : legalBase 0x7FF := legal7FF

/-- One identifier of each class, at their edges: base + 2, base + 1, the base itself, base + 3. -/
theorem witness_DemuxByIdentifier :
    legalBase ready.cfg.baseId ∧ (0x602 : Ident).toNat = ready.cfg.baseId.toNat + 2 ∧
      (0x601 : Ident).toNat = ready.cfg.baseId.toNat + 1 ∧
    (0x1FFFFE00 : Ident).toNat % 2048 = ready.cfg.baseId.toNat ∧ (0x603 : Ident).toNat % 2048 ≠ ready.cfg.baseId.toNat :=
  ⟨legal600, by decide⟩

/-- Each class with a length of 8 and another length. -/
theorem witness_DecodeOrderOfChecks :
    demuxId ready.cfg.baseId 0x123 = .other ∧ demuxId ready.cfg.baseId 0x600 = .data ∧ demuxId ready.cfg.baseId 0x601 = .info ∧
    demuxId ready.cfg.baseId 0x602 = .progress ∧ (8 : Fin 9) = 8 ∧ (7 : Fin 9) ≠ 8 := by decide

/-- The last DATA identifier of a base. -/
theorem witness_FieldDecodersReadBytes_data :
    legalBase ready.cfg.baseId ∧ (0x1FFFFE00 : Ident) &&& 0x7FF#29 = ready.cfg.baseId := ⟨legal600, by decide⟩

theorem witness_FieldDecodersReadBytes :
    payloadByte 0x0A00 0 = 0 ∧ payloadByte 0x0A01 0 = 1 ∧ payloadByte 0x0A02 0 ≠ 0 ∧ payloadByte 0x0A02 0 ≠ 1 ∧
    (payloadByte 0x0000030000000001 5).toNat = 3 ∧ (payloadByte 0x0000040000000001 5).toNat > 3 := by
  unfold payloadByte
  decide

theorem witness_CheckMismatchNeverRaised :
    ∃ t, exec .start { ready with cfg := { cfg600 with gran := 0 } } = .next t ∧ t.err ≠ ready.err := ⟨_, rfl, by decide⟩

/-- The largest legal image and the largest length. -/
theorem witness_BlockCountIsCeiling :
    (469762048#32).toNat ≤ 7 * 2 ^ 26 ∧ (469762048#32).toNat ≤ 7 * 67108864 ∧ (0xFFFFFFFF#32).toNat ≤ 7 * 613566757 := by decide

/-- The last block, partial. -/
theorem witness_BlockFetchReadsAndPads : (1#32).toNat < (ready.imgLen.toNat + 6) / 7 := by decide

theorem witness_EncDataBytes : legalBase ready.cfg.baseId ∧ (0x3FFFFFF#32).toNat < 2 ^ 26 := ⟨legal600, by decide⟩

theorem witness_EncInfoAndProgressBytes : legalBase ready.cfg.baseId ∧ (3 : Byte).toNat ≤ 3 := ⟨legal600, by decide⟩

theorem witness_OutsideTheirDomains :
    2 ^ 26 ≤ (0x4000000#32).toNat ∧ 4 ≤ (4 : Byte).toNat ∧ (ready.imgLen.toNat + 6) / 7 ≤ (2#32).toNat ∧ ready.receiving = false ∧
    (Instr.progress true true true 0).format = .frame93 ∧ ready.op = .noOp ∧ (inRun .idle .rxDrain).pstep = .rxDrain ∧
    (let s : State := { ready with script := [.host (.write (.image 10 0xAB))] }
     s.phase.atRest = true ∧ s.script = .host (.write (.image 10 0xAB)) :: [] ∧ s.imgLen.toNat ≤ (10#32).toNat) ∧
    (exec .start ready matches .next _) := by decide

theorem witness_OutsideTheirDomains_linkOperations :
    ∀ x ∈ [(Instr.lsOpen, Op.openOp, OpStep.tryPort), (.lsSend, .sendOp, .retry), (.lsRecv, .recvOp, .tryPort),
      (.lsRecover, .openOp, .recOpen), (.lsClose, .closeOp, .tryPort)],
      x.1 ∈ [Instr.lsOpen, .lsSend, .lsRecv, .lsRecover, .lsClose] ∧ (inRun .idle .gap x.2.1 x.2.2 [.reply good]).op ≠ .noOp ∧
        (exec x.1 (inRun .idle .gap x.2.1 x.2.2 [.reply good]) matches .next _) := by decide

/-- Both at a complete boundary and at one that is not. -/
theorem witness_OutsideTheirDomains_boundary :
    let s (n : BitVec 27) : State := { inRun .transfer .boundary with cursor := 1, blockcount := n, abortReq := true }
    ((s 2).phase = .transfer ∧ (s 2).op = .noOp ∧ (s 2).pstep = .boundary ∧ (s 2).abortReq = true ∧ (s 2).complete = true) ∧
    ((s 3).phase = .transfer ∧ (s 3).op = .noOp ∧ (s 3).pstep = .boundary ∧ (s 3).abortReq = true ∧ (s 3).complete = false) :=
  ⟨⟨rfl, rfl, rfl, rfl, by decide⟩, rfl, rfl, rfl, rfl, by decide⟩

theorem witness_OutsideTheirDomains_cursor : (-2 : Signed33).toInt < -1 := by decide

/-- At -1, the lowest cursor. -/
theorem witness_CursorUpdateIsSignedMax : -1 ≤ (-1 : Signed33).toInt := by decide

/-- Three reports in two orders (V-T12). -/
theorem witness_CursorAfterReports :
    -1 ≤ (-1 : Signed33).toInt ∧ (false, 9#32) ∈ [(true, 5#32), (true, 3#32), (false, 9#32)] ∧
    [(true, 5#32), (true, 3#32), (false, 9#32)].Perm [(false, 9#32), (true, 5#32), (true, 3#32)] := by decide

/-- For each of the seven causes a state at rest in which it is the first check to fail. -/
theorem witness_StartRefusedByConfiguration :
    ∀ x ∈ [(0, ConfigCause.missingBaseId, { cfg600 with presentBase := false }, 10#32),
        (1, .missingBitrate, { cfg600 with presentRate := false }, 10), (2, .invalidBaseId, { cfg600 with baseId := 0x800 }, 10),
        (3, .invalidBitrate, { cfg600 with bitrate := 0 }, 10), (4, .invalidWindow, { cfg600 with window := 0 }, 10),
        (5, .invalidGranularity, { cfg600 with gran := 0 }, 10), (6, .imageTooLarge, cfg600, 469762049)],
      let s : State := { ready with cfg := x.2.2.1, imgLen := x.2.2.2 }
      s.phase.atRest = true ∧ configOrder[x.1]? = some x.2.1 ∧ configFails s x.2.1 = true ∧
        ∀ m < x.1, (configOrder[m]?.all fun d => !configFails s d) = true := by decide

/-- The largest legal image. -/
theorem witness_StartBeginsFreshRun :
    let s : State := { ready with imgLen := 469762048 }
    s.phase.atRest = true ∧ ∀ c, configFails s c = false := ⟨by decide, fun c => by cases c <;> decide⟩

/-- For StartIgnoredWhileRunning and AbortLatchedWhileRunning. -/
theorem witness_runningAndAtRest :
    (inRun .transfer .send).phase.atRest = false ∧ (opening .openOp .tryPort .closed).phase.atRest = false ∧
    ready.phase.atRest = true := by decide

theorem witness_LsOpenTransitions :
    (opening .noOp .tryPort .closed).phase = .opening ∧ (opening .noOp .tryPort .closed).op = .noOp ∧
    (∀ r ∈ [good, bad], (opening .openOp .tryPort .closed [.reply r]).script = .reply r :: []) ∧
    (opening .openOp .tryPort .closed).phase = .opening ∧ (opening .openOp .tryPort .closed).op = .openOp ∧ (opening .openOp .tryPort .closed).opstep = .tryPort ∧
    good.opened = some { token := 8 } ∧ bad.opened = none := by decide

theorem witness_LsSendTransitions :
    (∀ p ∈ [Phase.sendingDigest, .sendingLength, .transfer],
      (inRun p .send).phase.exchanging = true ∧ (inRun p .send).pstep = .send ∧ (inRun p .send).op = .noOp) ∧
    (let s := noChannel (inRun .transfer .send .sendOp)
     s.phase.exchanging = true ∧ s.pstep = .send ∧ s.op = .sendOp ∧ s.opstep = .tryPort ∧ s.link ≠ .up) ∧
    (∀ p ∈ [Phase.sendingDigest, .sendingLength, .transfer], ∀ o ∈ [OpStep.tryPort, .retry], ∀ r ∈ [good, bad],
      let s := inRun p .send .sendOp o [.reply r]
      s.phase.exchanging = true ∧ s.pstep = .send ∧ s.op = .sendOp ∧ s.opstep = o ∧ s.link = .up ∧ s.chan = some chan7 ∧ s.script = .reply r :: [] ∧ s.phase = p) ∧
    good.sent = true ∧ bad.sent = false := by decide

theorem witness_PollAndReceiveTransitions :
    (∀ q ∈ [PStep.rxTimed, .rxDrain], (inRun .transfer q).phase.exchanging = true ∧ (inRun .transfer q).op = .noOp ∧
      (inRun .transfer q).pstep = q) ∧
    (let s := noChannel (inRun .transfer .rxTimed .recvOp)
     s.phase.exchanging = true ∧ s.pstep = .rxTimed ∧ s.op = .recvOp ∧ s.opstep = .tryPort ∧ s.link ≠ .up) ∧
    (∀ p ∈ [Phase.sendingDigest, .sendingLength, .transfer], ∀ q ∈ [PStep.rxTimed, .rxDrain], ∀ r ∈ [recvErr, bad],
      let s := inRun p q .recvOp .tryPort [.reply r]
      s.op = .recvOp ∧ s.opstep = .tryPort ∧ s.link = .up ∧ s.chan = some chan7 ∧ s.script = .reply r :: [] ∧ s.phase = p ∧
        s.phase.exchanging = true ∧ s.pstep = q) ∧
    recvErr.received = .err ∧ bad.received = .nothing := by decide

/-- For ReceivedProgressIsConsumed and OtherFramesAreDropped. -/
theorem witness_receivedFrames :
    (∀ p ∈ [Phase.sendingDigest, .sendingLength, .transfer], ∀ r ∈ [written0, foreign],
      let s := inRun p .rxTimed .recvOp .tryPort [.reply r]
      s.receiving = true ∧ s.chan = some chan7 ∧ s.script = .reply r :: [] ∧ s.phase = p) ∧
    foreign.received = .frame { id := 0x123, payload := 0x04030201EFBEADDE, len := 8 } ∧
    decodeMessage 0x600 { id := 0x123, payload := 0x04030201EFBEADDE, len := 8 } = .notFutp := by decide

/-- An environment that repeats one frame, in the handshake and in the engine, with an abort requested. -/
theorem witness_DrainNeverEnds :
    ∀ p ∈ [Phase.sendingDigest, .sendingLength, .transfer], ∀ q ∈ [PStep.rxTimed, .rxDrain],
      let s : State := { inRun p q .recvOp with loop := [.reply foreign], abortReq := true }
      s.receiving = true ∧ s.chan = some chan7 ∧ s.script = [] ∧ s.loop = [.reply foreign] ∧
        foreign.received = .frame { id := 0x123, payload := 0x04030201EFBEADDE, len := 8 } := by decide

/-- The four clauses: slot 0 of a window with a second candidate; the last slot after a send, and without one; the extra
receive. -/
theorem witness_SlotAfterPoll :
    (∀ k ∈ [0, 1, 2], ∀ b ∈ [true, false],
      let s : State := { inRun .transfer .rxDrain .recvOp .tryPort [.reply bad] with wSlot := BitVec.ofNat 8 k, wsent := b }
      s.phase = .transfer ∧ s.receiving = true ∧ s.chan = some chan7 ∧ s.script = .reply bad :: [] ∧ bad.received = .nothing ∧
        s.wsent = b ∧ (s.wSlot.toNat < s.cfg.window.toNat ↔ k < 2) ∧ (s.wSlot = s.cfg.window ↔ k = 2) ∧
        ((s.wSlot.toNat + 1 < s.cfg.window.toNat ∧ s.wbase.toInt + s.wSlot.toNat + 2 < s.blockcount.toNat) ↔ k = 0)) := by decide

theorem witness_LsRecoverClosesAndBringsUp :
    ∀ x ∈ [(Phase.opening, PStep.boundary, Op.openOp), (.sendingDigest, .send, .sendOp), (.sendingLength, .rxTimed, .recvOp),
        (.transfer, .rxDrain, .recvOp)],
      (let s := noChannel (inRun x.1 x.2.1 x.2.2 .recClose)
       s.recoverable = true ∧ s.opstep = .recClose ∧ s.link ≠ .up) ∧
      (let s := inRun x.1 x.2.1 x.2.2 .recClose [.reply good]
       s.recoverable = true ∧ s.script = .reply good :: [] ∧ s.opstep = .recClose ∧ s.link = .up ∧ s.chan = some chan7) ∧
      (let s := noChannel (inRun x.1 x.2.1 x.2.2 .recBringup [.reply good])
       s.recoverable = true ∧ s.script = .reply good :: [] ∧ s.opstep = .recBringup) := by decide

/-- For RecoveryInsideOpen, RecoveryInsideSend and RecoveryInsideRecv: the last step of a recovery, in each operation it runs in,
with both answers. -/
theorem witness_RecoveryInside :
    ∀ r ∈ [good, bad],
      (let s := opening .openOp .recOpen .down [.reply r]
       s.phase = .opening ∧ s.op = .openOp ∧ s.opstep = .recOpen ∧ s.script = .reply r :: []) ∧
      ∀ p ∈ [Phase.sendingDigest, .sendingLength, .transfer],
        (let s := noChannel (inRun p .send .sendOp .recOpen [.reply r])
         s.phase.exchanging = true ∧ s.pstep = .send ∧ s.op = .sendOp ∧ s.opstep = .recOpen ∧ s.script = .reply r :: [] ∧
           s.phase = p) ∧
        (let s := noChannel (inRun p .rxTimed .recvOp .recOpen [.reply r])
         s.pstep = .rxTimed ∧ s.op = .recvOp ∧ s.opstep = .recOpen ∧ s.script = .reply r :: [] ∧ s.phase = p) := by decide

/-- The four clauses of the engine, as for SlotAfterPoll. -/
theorem witness_RecoveryInsideRecv :
    ∀ r ∈ [good, bad], ∀ k ∈ [0, 1, 2], ∀ b ∈ [true, false],
      let s : State := { noChannel (inRun .transfer .rxDrain .recvOp .recOpen [.reply r]) with wSlot := BitVec.ofNat 8 k, wsent := b }
      s.pstep = .rxDrain ∧ s.op = .recvOp ∧ s.opstep = .recOpen ∧ s.script = .reply r :: [] ∧ s.phase = .transfer ∧ s.wsent = b ∧
        (s.wSlot.toNat < s.cfg.window.toNat ↔ k < 2) ∧ (s.wSlot = s.cfg.window ↔ k = 2) ∧
        ((s.wSlot.toNat + 1 < s.cfg.window.toNat ∧ s.wbase.toInt + s.wSlot.toNat + 2 < s.blockcount.toNat) ↔ k = 0) := by decide

theorem witness_LsCloseReleases :
    (∀ x ∈ [(Phase.transfer, PStep.exit), (.transfer, .boundary), (.sendingDigest, .boundary), (.sendingLength, .boundary)],
      (inRun x.1 x.2).phase.exchanging = true ∧ (inRun x.1 x.2).op = .noOp) ∧
    (∀ x ∈ [(Phase.transfer, PStep.exit), (.transfer, .boundary), (.sendingDigest, .boundary), (.sendingLength, .boundary)],
      let s := inRun x.1 x.2 .closeOp .tryPort [.reply bad]
      s.op = .closeOp ∧ s.opstep = .tryPort ∧ s.phase = x.1 ∧ s.phase.exchanging = true ∧ s.pstep = x.2 ∧ s.link = .up ∧ s.chan = some chan7 ∧
        s.script = .reply bad :: [] ∧ (noChannel s).link ≠ .up) := by decide

theorem noReply_nil {s : State} (h : s.script = []) : s.noReply := fun r rest => by simp [h]
theorem noReset_of {s : State} (h : (s.drawTurn.script matches .reset :: _) = false) : s.noReset := fun rest hr => by simp [hr] at h

theorem witness_OutstandingRequestWaits :
    (opening .openOp .tryPort .closed).noReply ∧ (opening .openOp .tryPort .closed).op = .openOp ∧
    (∀ o ∈ [Op.openOp, .sendOp, .recvOp], ∀ q ∈ [OpStep.recClose, .recBringup, .recOpen],
      let s := inRun .transfer .send o q
      s.script = [] ∧ s.op = o ∧ s.opstep = q ∧ s.link = .up ∧ s.chan.isSome = true) ∧
    (∀ o ∈ [Op.sendOp, .recvOp, .closeOp], ∀ q ∈ [OpStep.tryPort, .retry],
      let s := inRun .transfer .send o q
      s.script = [] ∧ s.op = o ∧ s.opstep = q ∧ s.link = .up ∧ s.chan.isSome = true) ∧
    (∀ p ∈ [Phase.sendingDigest, .sendingLength],
      (inRun p .gap).script = [] ∧ (inRun p .gap).op = .noOp ∧ (inRun p .gap).pstep = .gap ∧ (inRun p .gap).phase = p) :=
  ⟨noReply_nil rfl, by decide⟩

theorem witness_FailedSendIsRetriedOnce :
    let s := inRun .transfer .send .sendOp .tryPort [.reply bad, .reply bad, .reply bad, .reply good, .reply bad]
    s.phase.exchanging = true ∧ s.pstep = .send ∧ s.op = .sendOp ∧ s.opstep = .tryPort ∧ s.link = .up ∧ s.chan = some chan7 ∧
    s.script = [.reply bad, .reply bad, .reply bad, .reply good, .reply bad] ++ [] ∧ bad.sent = false ∧
    good.opened = some { token := 8 } := by decide

theorem witness_HandshakeRoundTransitions_digest :
    (∀ a ∈ [true, false],
      let s : State := { inRun .sendingDigest .boundary with abortReq := a }
      s.phase = .sendingDigest ∧ s.op = .noOp ∧ s.pstep = .boundary ∧ s.abortReq = a) ∧
    (∀ k : Fin 4, let s : State := { inRun .sendingDigest .send with hsK := BitVec.ofNat 3 k.val }
      s.pstep = .send ∧ s.hsK.toNat = k.val) ∧
    (∀ k ∈ [0, 2, 3], let s : State := { inRun .sendingDigest .gap .noOp .tryPort [.reply bad] with hsK := BitVec.ofNat 3 k }
      s.pstep = .gap ∧ s.script = .reply bad :: [] ∧ s.hsK.toNat = k) ∧
    (∀ q ∈ [PStep.rxTimed, .rxDrain], (inRun .sendingDigest q).phase = .sendingDigest ∧ (inRun .sendingDigest q).op = .noOp) := by
  decide

theorem witness_DigestRoundSendsFourChunks :
    let s := inRun .sendingDigest .boundary .noOp .tryPort (List.replicate 8 (.reply good))
    s.phase = .sendingDigest ∧ s.pstep = .boundary ∧ s.op = .noOp ∧ s.abortReq = false ∧ s.link = .up ∧ s.chan = some chan7 ∧
    s.script = [.reply good, .reply good, .reply good, .reply good, .reply good, .reply good, .reply good, .reply good] ++ [] ∧
    good.sent = true := by decide

theorem witness_HandshakeEvaluations :
    (∀ p ∈ [Phase.sendingDigest, .sendingLength, .digestConfirmed], ∀ v ∈ [true, false], ∀ x ∈ [true, false], ∀ y ∈ [true, false],
      let s : State := { inRun p .eval with fresh := { valid := v, rd := x, rl := y, wr := false, idx := 0 } }
      s.op = .noOp ∧ s.phase = p ∧ s.pstep = .eval ∧ s.fresh.valid = v ∧ s.fresh.rd = x ∧ s.fresh.rl = y) := by decide

theorem witness_HandshakeRoundTransitions_length :
    (∀ q ∈ [PStep.boundary, .send, .gap, .rxTimed, .rxDrain], ∀ a ∈ [true, false],
      let s : State := { inRun .sendingLength q .noOp .tryPort [.reply bad] with abortReq := a }
      s.phase = .sendingLength ∧ s.op = .noOp ∧ s.pstep = q ∧ s.abortReq = a ∧ s.script = .reply bad :: []) := by decide

theorem witness_EngineEntry :
    (inRun .lengthConfirmed .eval).phase = .lengthConfirmed ∧ (inRun .lengthConfirmed .eval).op = .noOp := by
  decide

/-- Each of the three outcomes: complete with an abort pending, an abort alone, neither; and the empty image. -/
theorem witness_EngineBoundaryOrder :
    ∀ c ∈ [1, 0, 2], ∀ a ∈ [true, false],
      let s : State := { inRun .transfer .boundary with cursor := BitVec.ofNat 33 c, abortReq := a }
      s.phase = .transfer ∧ s.op = .noOp ∧ s.pstep = .boundary ∧ s.drawTurn = s ∧ s.blockTurn = true ∧ s.abortReq = a ∧
        (s.cursor.toInt = (s.blockcount.toNat : Int) - 1 ↔ c = 1) := by decide

/-- The boundary at both sides of completion, and the send of the last block. -/
theorem witness_WindowTransitions :
    (∀ c ∈ [0, 2, 5],
      let s : State := { inRun .transfer .boundary with cursor := BitVec.ofNat 33 c }
      s.phase = .transfer ∧ s.op = .noOp ∧ s.pstep = .boundary ∧ s.cfg.window ≠ 0 ∧ s.abortReq = false ∧
        s.cursor.toInt ≠ (s.blockcount.toNat : Int) - 1 ∧ (s.cursor.toInt + 1 < s.blockcount.toNat ↔ c = 0)) ∧
    (let s : State := { inRun .transfer .send with wSlot := 1 }
     s.pstep = .send ∧ ((1#32).toNat : Int) = s.wbase.toInt + s.wSlot.toNat + 1) ∧
    (∀ q ∈ [PStep.rxTimed, .rxDrain], (inRun .transfer q).pstep = q) := by decide
theorem witness_WindowTransitions_frame :
    let s : State := { inRun .transfer .send with wSlot := 1 }
    exec (.blkFetch 1) s = .next { s with ret := .block 0x00000000191817 } ∧
    exec (.encData 1 0x00000000191817) s = .next { s with ret := .frame { id := 0x600, payload := 0x0000000019181701 } } := ⟨rfl, rfl⟩

/-- The granularity met and missed by one block; a flush with and without something to report. -/
theorem witness_ReporterEvents :
    (∀ g ∈ [2, 3],
      let s : State := { inRun .transfer .report with cfg := { cfg600 with gran := BitVec.ofNat 32 g }, cursor := 1 }
      s.phase = .transfer ∧ s.op = .noOp ∧ -1 ≤ s.lastrep.toInt ∧ s.lastrep.toInt ≤ s.cursor.toInt ∧ s.pstep = .report ∧
        ((s.cfg.gran.toNat : Int) ≤ s.cursor.toInt - s.lastrep.toInt ↔ g = 2)) ∧
    (∀ l ∈ [0, 1],
      let s : State := { inRun .transfer .exit with cursor := 1, lastrep := BitVec.ofNat 33 l }
      s.phase = .transfer ∧ s.op = .noOp ∧ -1 ≤ s.lastrep.toInt ∧ s.lastrep.toInt ≤ s.cursor.toInt ∧ s.pstep = .exit ∧
        (s.lastrep.toInt < s.cursor.toInt ↔ l = 0) ∧ (s.lastrep.toInt = s.cursor.toInt ↔ l = 1)) := by decide

theorem witness_ExitTransitions :
    (let s : State := { inRun .transfer .boundary with cursor := 1, abortReq := true }
     s.op = .noOp ∧ s.phase = .transfer ∧ s.pstep = .boundary ∧ s.cursor.toInt = (s.blockcount.toNat : Int) - 1) ∧
    (let s : State := { inRun .transfer .exit with cursor := 1, lastrep := 1 }
     s.op = .noOp ∧ s.phase = .transfer ∧ s.pstep = .exit ∧ s.cursor.toInt ≤ s.lastrep.toInt) ∧
    (∀ p ∈ [Phase.sendingDigest, .sendingLength, .transfer],
      let s : State := { inRun p .boundary with abortReq := true }
      s.op = .noOp ∧ s.phase = p ∧ s.phase.exchanging = true ∧ s.pstep = .boundary ∧ s.abortReq = true ∧
        s.cursor.toInt ≠ (s.blockcount.toNat : Int) - 1) := by decide

/-- A run in overrun (V-T14). -/
def overrun : State := { inRun .transfer .boundary with cursor := 5 }

theorem overrun_inv : overrun.Inv where
  image := by decide
  cursor_ge := by decide
  lastrep_ge := by decide
  lastrep_le := by decide
  wbase_ge := by decide
  wbase_le := by decide
  channel := by decide
  linked := by decide
  discipline := by decide
  config := by decide
  control := by decide

theorem witness_OverrunPersists :
    ∃ t, overrun.Inv ∧ overrun.phase = .transfer ∧ overrun.pstep ≠ .exit ∧
      (overrun.blockcount.toNat : Int) ≤ overrun.cursor.toInt ∧ overrun.noReset ∧ step overrun = .next t :=
  ⟨_, overrun_inv, by decide, by decide, by decide, noReset_of (by decide), rfl⟩

theorem witness_InvPreserved : ∃ t, overrun.Inv ∧ step overrun = .next t := ⟨_, overrun_inv, rfl⟩

/-- A legal turn of each kind: none, a read of the last register number and of the last image byte. -/
theorem witness_NoStopFromInv :
    overrun.Inv ∧ overrun.legalTurn = true ∧
    ({ overrun with script := [.host (.readNumber 0x17)] } : State).legalTurn = true ∧
    ({ overrun with script := [.host (.readImage 9)] } : State).legalTurn = true := ⟨overrun_inv, by decide⟩

/-- An operation, and a step that goes through three arrows: from EVAL, confirmed, with an abort pending and no channel. -/
theorem witness_PhaseMovesAlongArrows :
    (let s := inRun .digestConfirmed .eval
     decode s.cfg.baseId (.control s.controlCode) = .ok .hsEvalDigest ∧ seen (·.phase) (exec .hsEvalDigest s) = some .sendingLength) ∧
    Instr.start.format = .hostCommand ∧ (Instr.infoLen 1).format = .frame93 ∧
    (let s : State := { noChannel (inRun .sendingDigest .eval) with
      abortReq := true, fresh := { valid := true, rd := true, rl := false, wr := false, idx := 0 } }
     (s.drawTurn.script matches .reset :: _) = false ∧ seen (·.phase) (step s) = some .aborted) := by decide

/-- A step in which the cursor changes. -/
theorem witness_CursorChangedOnlyByReports :
    let s := inRun .transfer .rxTimed .noOp .tryPort [.reply written0]
    s.phase.atRest = false ∧ (s.drawTurn.script matches .reset :: _) = false ∧
      seen (·.phase) (s.drawTurn.settle settleSteps) = some .transfer ∧ seen (·.cursor) (step s) = some 0 ∧ s.cursor = -1 := by decide

theorem witness_NoOperationWritesInputs : ∃ t, exec .start ready = .next t := ⟨_, rfl⟩

/-- A write in a run and at rest, of the last image byte, of a digest register and of CFG_BASE_ID. -/
theorem witness_HostWritesOutsideARun :
    ∀ w ∈ [HostWrite.image 9 0xAB, .digest 3 1, .baseId 0x7FF, .imgLen 0],
      (let s := inRun .transfer .send .noOp .tryPort [.host (.write w)]
       s.script = .host (.write w) :: [] ∧ s.phase.atRest = false) ∧
      (let s : State := { ready with script := [.host (.write w)] }
       s.script = .host (.write w) :: [] ∧ s.phase.atRest = true ∧ (9#32).toNat < s.imgLen.toNat) := by decide

/-- The last register number that exists and the first that does not; the last image byte and the first beyond it. -/
theorem witness_HostReadsHaveNoSideEffect :
    HostReg.ofNumber 0x17 = some .evtTotal ∧ 0x18 ≤ (0x18 : Byte).toNat ∧
    (9#32).toNat < ready.imgLen.toNat ∧ ¬ (10#32).toNat < ready.imgLen.toNat ∧
    (∀ a ∈ [HostAccess.read .status, .readImage 9, .readNumber 0x17, .readNumber 0x18],
      ({ ready with script := [.host a] } : State).script = .host a :: []) := by decide

/-- One witness of each of the three writers of ERR. -/
theorem witness_ErrWrittenOnlyAtRunEnds :
    (∃ t, exec .start { ready with err := 0x11 } = .next t ∧ t.err ≠ 0x11) ∧
    (∃ t, exec .start { ready with cfg := { cfg600 with window := 0 } } = .next t ∧ t.err ≠ ready.err) ∧
    (∃ t, exec .lsRecover (opening .openOp .recOpen .down [.reply bad]) = .next t ∧ t.err ≠ ready.err) :=
  ⟨⟨_, rfl, by decide⟩, ⟨_, rfl, by decide⟩, ⟨_, rfl, by decide⟩⟩

theorem witness_FlagsWrittenOnlyByTransitions :
    (∃ t, exec .hsEvalDigest { inRun .sendingDigest .eval with fresh := { valid := true, rd := true, rl := false, wr := false, idx := 0 } }
        = .next t ∧ t.digestOk ≠ ready.digestOk) ∧
    (∃ t, exec .hsEvalLength { inRun .sendingLength .eval with fresh := { valid := true, rd := false, rl := true, wr := false, idx := 0 } }
        = .next t ∧ t.lengthOk ≠ ready.lengthOk) ∧
    (∃ t, exec .start { ready with digestOk := true, lengthOk := true } = .next t ∧ t.digestOk ≠ true ∧ t.lengthOk ≠ true) :=
  ⟨⟨_, rfl, by decide⟩, ⟨_, rfl, by decide⟩, ⟨_, rfl, by decide, by decide⟩⟩

/-- A send in progress with the frame of the last block. -/
def sending : State :=
  { inRun .transfer .send .sendOp .recClose with wSlot := 1, wsent := true, txf := { id := 0x600, payload := 0x0000000019181701 } }

theorem sending_inv : sending.Inv where
  image := by decide
  cursor_ge := by decide
  lastrep_ge := by decide
  lastrep_le := by decide
  wbase_ge := by decide
  wbase_le := by decide
  channel := by decide
  linked := by decide
  discipline := by decide
  config := by decide
  control := by decide

theorem witness_SentFrameStaysEncoded : ∃ t, sending.Inv ∧ sending.op = .sendOp ∧ sending.txfSettled ∧ step sending = .next t :=
  ⟨_, sending_inv, rfl, fun _ => by decide, rfl⟩

/-- The exit of P1 with everything reported. -/
def exiting : State :=
  { inRun .transfer .exit .closeOp .tryPort [.reply bad] with
    cursor := 1, lastrep := 1, evt := { delta := 14, confirmed := 14, total := 10 }
    trace := [.emitted { delta := 14, confirmed := 14, total := 10 }, .emitted { delta := 0, confirmed := 0, total := 10 },
      .opened cfg600.bus cfg600.bitrate chan7] }

theorem exiting_inv : exiting.Inv where
  image := by decide
  cursor_ge := by decide
  lastrep_ge := by decide
  lastrep_le := by decide
  wbase_ge := by decide
  wbase_le := by decide
  channel := by decide
  linked := by decide
  discipline := by decide
  config := by decide
  control := by decide

theorem witness_EventsAccountForBlocks : ∃ t, exiting.Inv ∧ exiting.eventsSettled ∧ step exiting = .next t ∧ t.phase = .done :=
  ⟨_, exiting_inv, ⟨fun _ => ⟨⟨by decide, by decide⟩, by decide, fun _ => ⟨by decide, fun _ => by decide⟩⟩, fun h => absurd h (by decide)⟩,
    rfl, by decide⟩

/-- Two states that differ in a duration register. -/
theorem witness_DurationsDecideNothing :
    ready.forgetDurations = ({ ready with cfg := { cfg600 with tDrain := { num := 5, den := 1 } } } : State).forgetDurations ∧
    ready.cfg.tDrain ≠ { num := 5, den := 1 } := ⟨rfl, by decide⟩

end Sys2Proof.Tests
end

section
/-!
PROOFS. THE LINES OF THE BLOCK: what the operation a running block fetches makes of the state, for every control state and every answer.
-/
namespace Sys2Proof.Machine

/-! ### The lines of the block -/

/-- THE LINES: what the operation a running block fetches makes of the state, said once for every operation and every answer. A
request without an answer waits; `rest` is the script without the answer taken off it. -/
inductive State.Line (s : State) : State → Prop
  | wait : s.Line s
  -- LS.OPEN (41_link.md R152)
  | openCall (hp : s.phase = .opening) (ho : s.op = .noOp) : s.Line (s.call .openOp)
  | opened (hp : s.phase = .opening) (ho : s.op = .openOp) (hq : s.opstep = .tryPort ∨ s.opstep = .recOpen) (c : Handle)
      (rest : List Turn) :
      s.Line (State.openReturn { s with
        script := rest, chan := some c, link := .up, trace := .opened s.cfg.bus s.cfg.bitrate c :: s.trace })
  | openFailed (hp : s.phase = .opening) (ho : s.op = .openOp) (hq : s.opstep = .tryPort) (rest : List Turn) :
      s.Line { s with script := rest, opstep := .recClose, trace := .openFailed s.cfg.bus s.cfg.bitrate :: s.trace }
  | linkFailed (hp : s.phase = .opening) (ho : s.op = .openOp) (hq : s.opstep = .recOpen) (rest : List Turn) :
      s.Line (takeException .linkOpenFailed { s with
        script := rest, trace := .openFailed s.cfg.bus s.cfg.bitrate :: s.trace })
  -- LS.RECOVER (R155)
  | lost (hr : s.recoverable = true) (hq : s.opstep = .recClose) (hl : s.live = none) : s.Line s.channelLost
  | closedLost (hr : s.recoverable = true) (hq : s.opstep = .recClose) {c : Handle} (hl : s.live = some c) (rest : List Turn) :
      s.Line (State.channelLost { s with script := rest, trace := .closed c :: s.trace })
  | broughtUp (hr : s.recoverable = true) (hq : s.opstep = .recBringup) (rest : List Turn) :
      s.Line { s with script := rest, opstep := .recOpen, trace := .broughtUp s.cfg.bus s.cfg.bitrate :: s.trace }
  | reopenedSend (hr : s.recoverable = true) (ho : s.op = .sendOp) (hq : s.opstep = .recOpen) (c : Handle) (rest : List Turn) :
      s.Line { s with
        script := rest, chan := some c, link := .up, opstep := .retry
        trace := .opened s.cfg.bus s.cfg.bitrate c :: s.trace }
  | reopenFailedSend (hr : s.recoverable = true) (ho : s.op = .sendOp) (hq : s.opstep = .recOpen) (rest : List Turn) :
      s.Line (State.sendReturn { s with script := rest, trace := .openFailed s.cfg.bus s.cfg.bitrate :: s.trace })
  | reopenedRecv (hr : s.recoverable = true) (ho : s.op = .recvOp) (hq : s.opstep = .recOpen) (c : Handle) (rest : List Turn) :
      s.Line (State.recvNone { s with
        script := rest, chan := some c, link := .up, trace := .opened s.cfg.bus s.cfg.bitrate c :: s.trace })
  | reopenFailedRecv (hr : s.recoverable = true) (ho : s.op = .recvOp) (hq : s.opstep = .recOpen) (rest : List Turn) :
      s.Line (State.recvNone { s with script := rest, trace := .openFailed s.cfg.bus s.cfg.bitrate :: s.trace })
  -- LS.SEND (R153)
  | sendUnlinked (hr : s.recoverable = true) (ho : s.op = .sendOp) (hq : s.opstep = .tryPort) (hl : s.live = none) :
      s.Line { s with opstep := .recClose }
  | sendFailed (hr : s.recoverable = true) (ho : s.op = .sendOp) (hq : s.opstep = .tryPort) {c : Handle} (hl : s.live = some c)
      (rest : List Turn) :
      s.Line { s with script := rest, opstep := .recClose, trace := .sent c s.txf false :: s.trace }
  | sent (hr : s.recoverable = true) (ho : s.op = .sendOp) (hq : s.opstep = .tryPort ∨ s.opstep = .retry) {c : Handle}
      (hl : s.live = some c) (ok : Bool) (rest : List Turn) :
      s.Line (State.sendReturn { s with script := rest, trace := .sent c s.txf ok :: s.trace })
  | retryUnlinked (hr : s.recoverable = true) (ho : s.op = .sendOp) (hq : s.opstep = .retry) (hl : s.live = none) :
      s.Line s.sendReturn
  -- LS.RECV (R154)
  | recvUnlinked (hr : s.recoverable = true) (ho : s.op = .recvOp) (hq : s.opstep = .tryPort) (hl : s.live = none) :
      s.Line { s with opstep := .recClose }
  | recvFailed (hr : s.receiving = true) {c : Handle} (hl : s.live = some c) (rest : List Turn) :
      s.Line { s with script := rest, opstep := .recClose, trace := .received c s.recvTimeout .err :: s.trace }
  | recvNothing (hr : s.receiving = true) {c : Handle} (hl : s.live = some c) (rest : List Turn) :
      s.Line (State.recvNone { s with script := rest, trace := .received c s.recvTimeout .nothing :: s.trace })
  | received (hr : s.receiving = true) {c : Handle} (hl : s.live = some c) {r : Reply} {rest : List Turn} {f : RxFrame}
      (hs : s.script = .reply r :: rest) (hf : r.received = .frame f) :
      s.Line (State.accept c (decodeMessage s.cfg.baseId f) { s with script := rest })
  -- LS.CLOSE (R156)
  | closeUnlinked (hp : s.phase.exchanging = true) (ho : s.op = .closeOp) (hl : s.live = none) : s.Line s.closeReturn
  | closed (hp : s.phase.exchanging = true) (ho : s.op = .closeOp) {c : Handle} (hl : s.live = some c) (rest : List Turn) :
      s.Line (State.closeReturn { s with script := rest, trace := .closed c :: s.trace })
  -- the calls of LS.CLOSE and LS.RECV (42_handshake.md R176, 43_transfer.md R198)
  | abortCall (hp : s.phase.exchanging = true) (ho : s.op = .noOp) (hq : s.pstep = .boundary) (ha : s.abortReq = true) :
      s.Line (s.call .closeOp)
  | exitCall (hp : s.phase = .transfer) (ho : s.op = .noOp) (hq : s.pstep = .exit) (hf : s.flushDue = false) :
      s.Line (s.call .closeOp)
  | poll (hp : s.phase.exchanging = true) (ho : s.op = .noOp) (hq : s.pstep = .rxTimed ∨ s.pstep = .rxDrain) :
      s.Line (s.call .recvOp)
  -- the handshake (42_handshake.md R171 to R175)
  | digestBegin (hp : s.phase = .sendingDigest) (ho : s.op = .noOp) (hq : s.pstep = .boundary) :
      s.Line { s with hsK := 0, pstep := .send }
  | digestSend (hp : s.phase = .sendingDigest) (ho : s.op = .noOp) (hq : s.pstep = .send) {f : Frame} (hf : s.digestFrame = some f) :
      s.Line (State.call .sendOp { s with txf := f })
  | digestGap (hp : s.phase = .sendingDigest) (ho : s.op = .noOp) (hq : s.pstep = .gap) (rest : List Turn) :
      s.Line (State.digestGapDone { s with script := rest, trace := .delayed s.cfg.tDigestGap :: s.trace })
  | digestSeen (hp : s.phase = .sendingDigest) (ho : s.op = .noOp) (hq : s.pstep = .eval) (hf : s.digestSeen = true) :
      s.Line { s with digestOk := true, phase := .digestConfirmed }
  | digestConfirmed (hp : s.phase = .digestConfirmed) (ho : s.op = .noOp) :
      s.Line { s with phase := .sendingLength, pstep := .boundary }
  | lengthBegin (hp : s.phase = .sendingLength) (ho : s.op = .noOp) (hq : s.pstep = .boundary) : s.Line { s with pstep := .send }
  | lengthSend (hp : s.phase = .sendingLength) (ho : s.op = .noOp) (hq : s.pstep = .send) :
      s.Line (State.call .sendOp { s with txf := encodeInfoLen s.cfg.baseId s.imgLen })
  | lengthGap (hp : s.phase = .sendingLength) (ho : s.op = .noOp) (hq : s.pstep = .gap) (rest : List Turn) :
      s.Line (State.lengthGapDone { s with script := rest, trace := .delayed s.cfg.tLengthGap :: s.trace })
  | lengthSeen (hp : s.phase = .sendingLength) (ho : s.op = .noOp) (hq : s.pstep = .eval) (hf : s.lengthSeen = true) :
      s.Line { s with lengthOk := true, phase := .lengthConfirmed }
  | roundOver (hp : s.phase = .sendingDigest ∨ s.phase = .sendingLength) (ho : s.op = .noOp) (hq : s.pstep = .eval) :
      s.Line { s with pstep := .boundary }
  -- the engine and the reporter (43_transfer.md R190 to R194, 44_progress.md R221, R222)
  | enter (hp : s.phase = .lengthConfirmed) (ho : s.op = .noOp) :
      s.Line (State.emit { delta := 0, confirmed := 0, total := s.imgLen }
        { s with cursor := -1, lastrep := -1, wbase := -1, wsent := false, wSlot := 0, phase := .transfer, pstep := .boundary })
  | window (hp : s.phase = .transfer) (ho : s.op = .noOp) (hq : s.pstep = .boundary) (hc : s.complete = false) :
      s.Line (State.seekSlot { s with wbase := s.cursor, wsent := false, wSlot := 0 })
  | slot (hp : s.phase = .transfer) (ho : s.op = .noOp) (hq : s.pstep = .send) {f : Frame} (hf : s.candidateFrame = some f) :
      s.Line (State.call .sendOp { s with txf := f })
  | reported (hp : s.phase = .transfer) (ho : s.op = .noOp) (hq : s.pstep = .report) (hd : s.reportDue = true) :
      s.Line { s.emitProgress with pstep := .boundary }
  | unreported (hp : s.phase = .transfer) (ho : s.op = .noOp) (hq : s.pstep = .report) (hd : s.reportDue = false) :
      s.Line { s with pstep := .boundary }
  | complete (hp : s.phase = .transfer) (ho : s.op = .noOp) (hq : s.pstep = .boundary) (hc : s.complete = true) :
      s.Line { s with pstep := .exit }
  | flushed (hp : s.phase = .transfer) (ho : s.op = .noOp) (hq : s.pstep = .exit) (hf : s.flushDue = true) :
      s.Line s.emitProgress

theorem Phase.exchanging_iff {p : Phase} : p.exchanging = true ↔ p = .sendingDigest ∨ p = .sendingLength ∨ p = .transfer := by
  cases p <;> simp [Phase.exchanging]

theorem State.recoverable_send {s : State} (hp : s.phase.exchanging = true) (ho : s.op = .sendOp) (hs : s.pstep = .send) :
    s.recoverable = true := by
  simp [State.recoverable, hp, ho, hs]

theorem State.recoverable_recv {s : State} (hp : s.phase.exchanging = true) (ho : s.op = .recvOp)
    (hs : s.pstep = .rxTimed ∨ s.pstep = .rxDrain) : s.recoverable = true := by
  simp [State.recoverable, hp, ho, hs]

/-- LS.RECOVER's first two lines, the same inside every operation a recovery runs in. -/
theorem State.line_of_recover {s t : State} (hr : s.recoverable = true) (ho : s.op = .openOp ∨ s.op = .sendOp ∨ s.op = .recvOp)
    (hq : s.opstep = .recClose ∨ s.opstep = .recBringup) (he : exec .lsRecover s = .next t) : s.Line t := by
  rcases hq with hq | hq
  · cases hl : s.live with
    | none =>
      have hx : exec .lsRecover s = .next s.channelLost := by
        rcases ho with ho | ho | ho <;> simp only [exec, execLsRecover, ho, hq, hl]
      cases hx.symm.trans he
      exact .lost hr hq hl
    | some c =>
      have hx : exec .lsRecover s = portDone s (.closed c) State.channelLost := by
        rcases ho with ho | ho | ho <;> simp only [exec, execLsRecover, ho, hq, hl]
      rcases portDone_cases (hx.symm.trans he) with rfl | ⟨r, rest, -, rfl⟩
      · exact .wait
      · exact .closedLost hr hq hl rest
  · have hx : exec .lsRecover s = portDone s (.broughtUp s.cfg.bus s.cfg.bitrate) fun s => { s with opstep := .recOpen } := by
      rcases ho with ho | ho | ho <;> simp only [exec, execLsRecover, ho, hq]
    rcases portDone_cases (hx.symm.trans he) with rfl | ⟨r, rest, -, rfl⟩
    · exact .wait
    · exact .broughtUp hr hq rest

/-- LS.RECV with its receive to make. -/
theorem State.line_of_recv {s t : State} (hp : s.phase.exchanging = true) (ho : s.op = .recvOp)
    (hs : s.pstep = .rxTimed ∨ s.pstep = .rxDrain) (hq : s.opstep = .tryPort) (he : exec .lsRecv s = .next t) : s.Line t := by
  simp only [exec, execLsRecv, ho, hq] at he
  cases hl : s.live with
  | none =>
    rw [hl] at he; cases he
    exact .recvUnlinked (State.recoverable_recv hp ho hs) ho hq hl
  | some c =>
    rw [hl] at he
    have hr : s.receiving = true := State.receiving_iff.2 ⟨hp, ho, hq, hs, c, hl⟩
    rcases portRecv_cases he with rfl | ⟨r, rest, hsc, ⟨f, hf, rfl⟩ | ⟨-, rfl⟩ | ⟨-, rfl⟩⟩
    · exact .wait
    · exact .received hr hl hsc hf
    · exact .recvNothing hr hl rest
    · exact .recvFailed hr hl rest

/-- A selected operation makes one of the lines. -/
theorem State.line_of_selects {s t : State} {i : Instr} (hs : s.Selects i) (he : exec i s = .next t) : s.Line t := by
  cases hs with
  | openCall hp ho =>
    simp only [exec, execLsOpen, ho] at he; cases he
    exact .openCall hp ho
  | openTry hp ho hq =>
    simp only [exec, execLsOpen, ho, hq] at he
    rcases portOpen_cases he with rfl | ⟨r, rest, -, ⟨c, -, rfl⟩ | ⟨-, rfl⟩⟩
    · exact .wait
    · exact .opened hp ho (.inl hq) c rest
    · exact .openFailed hp ho hq rest
  | openRecover hp ho hq =>
    rw [← or_assoc] at hq
    rcases hq with hq | hq
    · exact State.line_of_recover (by simp [State.recoverable, ho, hp]) (.inl ho) hq he
    · simp only [exec, execLsRecover, ho, hq] at he
      rcases portOpen_cases he with rfl | ⟨r, rest, -, ⟨c, -, rfl⟩ | ⟨-, rfl⟩⟩
      · exact .wait
      · simpa [returnFromRecovery, ho] using State.Line.opened hp ho (.inr hq) c rest
      · simpa [returnFromRecovery, ho] using State.Line.linkFailed hp ho hq rest
  | digestConfirmed hp ho =>
    simp only [exec, execHsEvalDigest, hp, ho] at he; cases he
    simpa only [hp, ho] using State.Line.digestConfirmed hp ho
  | lengthConfirmed hp ho =>
    simp only [exec, execBteEnter, hp, ho] at he; cases he
    simpa only [hp, ho] using State.Line.enter hp ho
  | abort hp ho hq ha _ =>
    have hx : exec .abortExit s = .next (s.call .closeOp) := by
      rcases Phase.exchanging_iff.1 hp with hp | hp | hp <;> simp only [exec, execAbortExit, hp, ho, hq, ha]
    cases hx.symm.trans he
    exact .abortCall hp ho hq ha
  | digestBoundary hp ho hq ha =>
    simp only [exec, execHsDigestRound, hp, ho, hq, ha] at he; cases he
    simpa only [hp, ho, hq, ha] using State.Line.digestBegin hp ho hq
  | digestSend hp ho hq =>
    simp only [exec, execHsDigestRound, hp, ho, hq] at he
    split at he <;> cases he
    simpa only [hp, ho, hq] using State.Line.digestSend hp ho hq (by assumption)
  | digestGap hp ho hq =>
    simp only [exec, execHsDigestRound, hp, ho, hq] at he
    rcases portDone_cases he with rfl | ⟨r, rest, -, rfl⟩
    · exact .wait
    · exact .digestGap hp ho hq rest
  | digestEval hp ho hq =>
    simp only [exec, execHsEvalDigest, hp, ho, hq] at he
    split at he <;> cases he
    · simpa only [hp, ho, hq] using State.Line.digestSeen hp ho hq (by assumption)
    · simpa only [hp, ho, hq] using State.Line.roundOver (.inl hp) ho hq
  | lengthBoundary hp ho hq ha =>
    simp only [exec, execHsLengthRound, hp, ho, hq, ha] at he; cases he
    simpa only [hp, ho, hq, ha] using State.Line.lengthBegin hp ho hq
  | lengthSend hp ho hq =>
    simp only [exec, execHsLengthRound, hp, ho, hq] at he; cases he
    simpa only [hp, ho, hq] using State.Line.lengthSend hp ho hq
  | lengthGap hp ho hq =>
    simp only [exec, execHsLengthRound, hp, ho, hq] at he
    rcases portDone_cases he with rfl | ⟨r, rest, -, rfl⟩
    · exact .wait
    · exact .lengthGap hp ho hq rest
  | lengthEval hp ho hq =>
    simp only [exec, execHsEvalLength, hp, ho, hq] at he
    split at he <;> cases he
    · simpa only [hp, ho, hq] using State.Line.lengthSeen hp ho hq (by assumption)
    · simpa only [hp, ho, hq] using State.Line.roundOver (.inr hp) ho hq
  | complete hp ho hq hc =>
    simp only [exec, execBteExit, hp, ho, hq] at he; cases he
    simpa only [hp, ho, hq] using State.Line.complete hp ho hq hc
  | window hp ho hq hc _ =>
    simp only [exec, execBteWindow, hp, ho, hq] at he; cases he
    simpa only [hp, ho, hq] using State.Line.window hp ho hq hc
  | slot hp ho hq =>
    simp only [exec, execBteWindow, hp, ho, hq] at he
    split at he <;> cases he
    simpa only [hp, ho, hq] using State.Line.slot hp ho hq (by assumption)
  | report hp ho hq =>
    cases hd : s.reportDue <;> simp [exec, execPrReport, hp, ho, hq, hd] at he <;> subst he
    · simpa only [hp, ho, hq] using State.Line.unreported hp ho hq hd
    · simpa [hp, ho] using State.Line.reported hp ho hq hd
  | flush hp ho hq hf =>
    simp only [exec, execPrFlush, hp, ho, hq, hf] at he; cases he
    exact .flushed hp ho hq hf
  | exit hp ho hq hf =>
    simp only [exec, execBteExit, hp, ho, hq, hf] at he; cases he
    exact .exitCall hp ho hq hf
  | poll hp ho hq =>
    have hx : exec .rxPoll s = .next (s.call .recvOp) := by
      rcases hq with hq | hq <;> simp only [exec, execRxPoll, ho, hq]
    cases hx.symm.trans he
    exact .poll hp ho hq
  | send hp ho hs hq =>
    have hr := State.recoverable_send hp ho hs
    cases hl : s.live with
    | none =>
      rcases hq with hq | hq <;> simp only [exec, execLsSend, ho, hq, hl] at he <;> cases he
      · exact .sendUnlinked hr ho hq hl
      · exact .retryUnlinked hr ho hq hl
    | some c =>
      rcases hq with hq | hq <;> simp only [exec, execLsSend, ho, hq, hl] at he <;>
        rcases portSend_cases he with rfl | ⟨r, rest, -, ⟨-, rfl⟩ | ⟨-, rfl⟩⟩
      · exact .wait
      · exact .sent hr ho (.inl hq) hl true rest
      · exact .sendFailed hr ho hq hl rest
      · exact .wait
      · exact .sent hr ho (.inr hq) hl true rest
      · exact .sent hr ho (.inr hq) hl false rest
  | recv hp ho hs hq => exact State.line_of_recv hp ho hs hq he
  | sendRecover hp ho hs hq =>
    have hr := State.recoverable_send hp ho hs
    rw [← or_assoc] at hq
    rcases hq with hq | hq
    · exact State.line_of_recover hr (.inr (.inl ho)) hq he
    · simp only [exec, execLsRecover, ho, hq] at he
      rcases portOpen_cases he with rfl | ⟨r, rest, -, ⟨c, -, rfl⟩ | ⟨-, rfl⟩⟩
      · exact .wait
      · simpa [returnFromRecovery, ho] using State.Line.reopenedSend hr ho hq c rest
      · simpa [returnFromRecovery, ho] using State.Line.reopenFailedSend hr ho hq rest
  | recvRecover hp ho hs hq =>
    have hr := State.recoverable_recv hp ho hs
    rw [← or_assoc] at hq
    rcases hq with hq | hq
    · exact State.line_of_recover hr (.inr (.inr ho)) hq he
    · simp only [exec, execLsRecover, ho, hq] at he
      rcases portOpen_cases he with rfl | ⟨r, rest, -, ⟨c, -, rfl⟩ | ⟨-, rfl⟩⟩
      · exact .wait
      · simpa [returnFromRecovery, ho] using State.Line.reopenedRecv hr ho hq c rest
      · simpa [returnFromRecovery, ho] using State.Line.reopenFailedRecv hr ho hq rest
  | close hp ho hs hq =>
    cases hl : s.live with
    | none =>
      simp only [exec, execLsClose, ho, hl] at he; cases he
      exact .closeUnlinked hp ho hl
    | some c =>
      simp only [exec, execLsClose, ho, hl] at he
      rcases portDone_cases he with rfl | ⟨r, rest, -, rfl⟩
      · exact .wait
      · exact .closed hp ho hl rest

/-- A frame the outstanding receive answers is accepted, whatever stands at the head of the script. -/
theorem receiveFrame_cases {s t : State} {m : Message} (h : receiveFrame m s = .next t) :
    t = s ∨ ∃ c, s.receiving = true ∧ s.live = some c ∧ t = s.dropReply.accept c m := by
  unfold receiveFrame at h
  split at h
  · split at h <;> cases h
    · exact .inr ⟨_, by assumption, by assumption, rfl⟩
    · exact .inl rfl
  · cases h; exact .inl rfl

/-- WHAT THE BLOCK DOES at its atomic step: the operation it fetches makes one of the lines. -/
theorem State.line_of_fetch {s t : State} {i : Instr} (hf : s.blockFetch = .ok i) (he : exec i s = .next t) : s.Line t := by
  rcases State.blockFetch_cases hf with hs | ⟨r, rest, f, hs, hr, hrf, hd⟩
  · exact State.line_of_selects hs he
  · rw [exec_of_decodeFrame hd] at he
    rcases receiveFrame_cases he with rfl | ⟨c, hr, hl, rfl⟩
    · exact .wait
    · rw [State.dropReply_reply hs]
      exact .received hr hl hs hrf

end Sys2Proof.Machine
end

section
/-!
PROOFS. The invariant of a run without its control state, and the control states of a phase that sends and receives.
-/
namespace Sys2Proof.Machine

/-! ### The invariant of a run without its control state -/

/-- The value CURSOR, LASTREP and WBASE start from. -/
theorem toInt_neg_one : (-1 : Signed33).toInt = -1 := by decide

/-- What the invariant says of a run besides the control state: a line keeps this and the control state by separate arguments. -/
structure State.Sound (s : State) : Prop where
  image : Memory.wf s.img = true
  cursor_ge : -1 ≤ s.cursor.toInt
  lastrep_ge : -1 ≤ s.lastrep.toInt
  lastrep_le : s.lastrep.toInt ≤ s.cursor.toInt
  wbase_ge : -1 ≤ s.wbase.toInt
  wbase_le : s.wbase.toInt ≤ s.cursor.toInt
  channel : s.chan = heldChannel s.trace
  linked : s.link = .up ↔ s.chan.isSome = true
  discipline : disciplined s.trace = true
  config : s.configCheck = none
  blocks : s.blockcount.toNat = (s.imgLen.toNat + 6) / 7

theorem State.Inv.sound {s : State} (h : s.Inv) (hr : s.phase.atRest = false) : s.Sound :=
  { h with config := (h.config hr).1, blocks := (h.config hr).2 }

theorem State.Sound.inv {s : State} (h : s.Sound) (hc : s.controlLegal = true) : s.Inv :=
  { h with config := fun _ => ⟨h.config, h.blocks⟩, control := hc }

/-- The registers `State.Sound` speaks of. -/
def State.outline (s : State) :=
  (s.img, s.cursor, s.lastrep, s.wbase, s.link, s.chan, s.trace, s.cfg, s.imgLen, s.blockcount)

/-- A state that differs in other registers only is as sound. -/
theorem State.Sound.congr {s t : State} (h : s.Sound) (e : t.outline = s.outline) : t.Sound := by
  simp only [State.outline, Prod.mk.injEq] at e
  obtain ⟨himg, hcur, hrep, hbase, hlink, hchan, htrace, hcfg, hlen, hcount⟩ := e
  exact {
    image := himg ▸ h.image
    cursor_ge := hcur ▸ h.cursor_ge
    lastrep_ge := hrep ▸ h.lastrep_ge
    lastrep_le := hrep ▸ hcur ▸ h.lastrep_le
    wbase_ge := hbase ▸ h.wbase_ge
    wbase_le := hbase ▸ hcur ▸ h.wbase_le
    channel := by rw [hchan, htrace]; exact h.channel
    linked := by rw [hlink, hchan]; exact h.linked
    discipline := htrace ▸ h.discipline
    config := by simpa only [State.configCheck, hcfg, hlen] using h.config
    blocks := by rw [hcount, hlen]; exact h.blocks }

theorem State.seekSlot_outline (s : State) : s.seekSlot.outline = s.outline := by rw [s.seekSlot_frame]; rfl

theorem State.recvNone_outline (s : State) : s.recvNone.outline = s.outline := by rw [s.recvNone_frame]; rfl

theorem State.sendReturn_outline (s : State) : s.sendReturn.outline = s.outline := by
  rcases s.sendReturn_cases with ⟨-, h⟩ | ⟨-, h⟩ <;> rw [h] <;> rfl

theorem State.digestGapDone_outline (s : State) : s.digestGapDone.outline = s.outline := by
  rcases s.digestGapDone_cases with ⟨-, h⟩ | ⟨-, h⟩ <;> rw [h] <;> rfl

theorem State.live_eq_some {s : State} {c : Handle} : s.live = some c ↔ s.link = .up ∧ s.chan = some c := by
  unfold State.live
  cases s.link <;> simp

/-- An event that leaves the held channel as it is and was legal. -/
theorem State.Sound.logged {s : State} (h : s.Sound) {e : Event} (hh : heldChannel (e :: s.trace) = heldChannel s.trace)
    (hd : disciplined (e :: s.trace) = true) (rest : List Turn) : ({ s with script := rest, trace := e :: s.trace } : State).Sound :=
  { h with channel := h.channel.trans hh.symm, discipline := hd }

/-- The channel a request is made on is the one the record says is held. -/
theorem State.Sound.held {s : State} (h : s.Sound) {c : Handle} (hl : s.live = some c) : heldChannel s.trace = some c := by
  rw [← h.channel]
  exact (State.live_eq_some.1 hl).2

/-- Without a channel to make a request on none is held. -/
theorem State.Sound.unheld {s : State} (h : s.Sound) (hl : s.link ≠ .up) : s.chan = none ∧ heldChannel s.trace = none := by
  have hc : s.chan = none := by
    cases hc : s.chan with
    | none => rfl
    | some c => exact absurd (h.linked.2 (by simp [hc])) hl
  exact ⟨hc, h.channel ▸ hc⟩

theorem State.Sound.link_of_unlive {s : State} (h : s.Sound) (hl : s.live = none) : s.link ≠ .up := by
  intro hu
  obtain ⟨c, hc⟩ := Option.isSome_iff_exists.1 (h.linked.1 hu)
  rw [State.live_eq_some.2 ⟨hu, hc⟩] at hl
  cases hl

/-- A channel is opened where none was held. -/
theorem State.Sound.opened {s : State} (h : s.Sound) (hl : s.link ≠ .up) (c : Handle) (rest : List Turn) :
    ({ s with
      script := rest, chan := some c, link := .up, trace := .opened s.cfg.bus s.cfg.bitrate c :: s.trace } : State).Sound :=
  { h with
    channel := rfl
    linked := by simp
    discipline := by simp [disciplined, (h.unheld hl).2, h.discipline] }

theorem State.Sound.openFailed {s : State} (h : s.Sound) (hl : s.link ≠ .up) (rest : List Turn) :
    ({ s with script := rest, trace := .openFailed s.cfg.bus s.cfg.bitrate :: s.trace } : State).Sound :=
  h.logged rfl (by simp [disciplined, (h.unheld hl).2, h.discipline]) rest

/-- The link is given up where no channel was held. -/
theorem State.Sound.unlinked {s : State} (h : s.Sound) (hl : s.link ≠ .up) {l : Link} (hn : l ≠ .up) :
    ({ s with link := l, chan := none } : State).Sound :=
  { h with
    channel := (h.unheld hl).2.symm
    linked := by simp [hn] }

/-- The held channel is closed. -/
theorem State.Sound.closed {s : State} (h : s.Sound) {c : Handle} (hl : s.live = some c) {l : Link} (hn : l ≠ .up)
    (rest : List Turn) :
    ({ s with script := rest, trace := .closed c :: s.trace, link := l, chan := none } : State).Sound :=
  { h with
    channel := rfl
    linked := by simp [hn]
    discipline := by simp [disciplined, h.held hl, h.discipline] }

theorem State.Sound.sent {s : State} (h : s.Sound) {c : Handle} (hl : s.live = some c) (ok : Bool) (rest : List Turn) :
    ({ s with script := rest, trace := .sent c s.txf ok :: s.trace } : State).Sound :=
  h.logged rfl (by simp [disciplined, h.held hl, h.discipline]) rest

theorem State.Sound.received {s : State} (h : s.Sound) {c : Handle} (hl : s.live = some c) (k : RecvKind) (rest : List Turn) :
    ({ s with script := rest, trace := .received c s.recvTimeout k :: s.trace } : State).Sound :=
  h.logged rfl (by simp [disciplined, h.held hl, h.discipline]) rest

/-- LASTREP or the window's base is set to the cursor. -/
theorem State.Sound.emitProgress {s : State} (h : s.Sound) : s.emitProgress.Sound :=
  { h with
    lastrep_ge := h.cursor_ge
    lastrep_le := le_refl _ }

theorem State.Sound.latched {s : State} (h : s.Sound) : ({ s with wbase := s.cursor, wsent := false, wSlot := 0 } : State).Sound :=
  { h with
    wbase_ge := h.cursor_ge
    wbase_le := le_refl _ }

/-- A message is consumed: the cursor never falls. -/
theorem State.Sound.consume {s : State} (h : s.Sound) (m : Message) : (s.consume m).Sound := by
  rcases s.consume_cases m with ⟨rd, rl, wr, idx, -, -, e⟩ | ⟨rd, rl, wr, idx, -, -, e⟩ | e <;> rw [e]
  · exact h.congr rfl
  · have hle := le_cursorUpdate s.cursor wr idx
    exact { h with
      cursor_ge := h.cursor_ge.trans hle
      lastrep_le := h.lastrep_le.trans hle
      wbase_le := h.wbase_le.trans hle }
  · exact h

theorem State.Sound.accept {s : State} (h : s.Sound) {c : Handle} (hl : s.live = some c) (m : Message) (rest : List Turn) :
    (State.accept c m { s with script := rest }).Sound := by
  unfold State.accept
  refine State.Sound.consume ((h.received hl .frame rest).congr ?_) m
  rfl

/-! ### The control states of a phase that sends and receives -/

/-- The places of an exchanging phase at which LS.CLOSE is called. -/
def State.closing (s : State) : Bool := decide (s.pstep = .boundary) || (decide (s.phase = .transfer) && decide (s.pstep = .exit))

/-- PSTEP and its counter fit the phase. -/
def State.placeLegal (s : State) : Bool :=
  match s.phase with
  | .sendingDigest =>
    match s.pstep with
    | .boundary | .rxTimed | .rxDrain | .eval => true
    | .send | .gap => decide (s.hsK.toNat < 4)
    | .report | .exit => false
  | .sendingLength =>
    match s.pstep with
    | .boundary | .rxTimed | .rxDrain | .eval | .send | .gap => true
    | .report | .exit => false
  | .transfer =>
    decide (s.wSlot.toNat ≤ s.cfg.window.toNat) &&
      match s.pstep with
      | .boundary | .rxTimed | .rxDrain | .report | .exit => true
      | .send => decide (s.wSlot.toNat < s.cfg.window.toNat) && s.sendable
      | .gap | .eval => false
  | .idle | .opening | .digestConfirmed | .lengthConfirmed | .done | .aborted | .cfgError | .linkFailed => false

/-- The engine goes from one of its places to another that no slot comes with. -/
theorem State.placeLegal_engine {s : State} {q : PStep} (hp : s.phase = .transfer) (h : s.placeLegal = true)
    (hq : q ∈ [.boundary, .rxTimed, .rxDrain, .report, .exit]) : ({ s with pstep := q } : State).placeLegal = true := by
  simp only [State.placeLegal, hp, Bool.and_eq_true] at h
  cases q <;> simp [State.placeLegal, hp, of_decide_eq_true h.1] at hq ⊢

/-- In an exchanging phase: a link that was opened, a link-supervisor operation that fits PSTEP, and a PSTEP that fits the phase. -/
theorem State.controlLegal_exchanging {s : State} (hp : s.phase.exchanging = true) :
    s.controlLegal = true ↔ s.link ≠ .closed ∧ s.linkOpLegal s.closing = true ∧ s.placeLegal = true := by
  rcases Phase.exchanging_iff.1 hp with hp | hp | hp <;> cases hq : s.pstep <;>
    simp [State.controlLegal, State.placeLegal, State.closing, hp, hq, and_assoc]

/-- Outside a link-supervisor operation. -/
theorem State.controlLegal_of_noOp {s : State} (hp : s.phase.exchanging = true) (ho : s.op = .noOp) (hl : s.link ≠ .closed)
    (h : s.placeLegal = true) : s.controlLegal = true :=
  (State.controlLegal_exchanging hp).2 ⟨hl, by simp [State.linkOpLegal, ho], h⟩

theorem State.controlLegal_of_send {s : State} (hp : s.phase.exchanging = true) (ho : s.op = .sendOp) (hs : s.pstep = .send)
    (hl : s.link ≠ .closed) (hq : s.transferOpLegal true = true) (h : s.placeLegal = true) : s.controlLegal = true :=
  (State.controlLegal_exchanging hp).2 ⟨hl, by simp [State.linkOpLegal, ho, hs, hq], h⟩

theorem State.controlLegal_of_recv {s : State} (hp : s.phase.exchanging = true) (ho : s.op = .recvOp)
    (hs : s.pstep = .rxTimed ∨ s.pstep = .rxDrain) (hl : s.link ≠ .closed) (hq : s.transferOpLegal false = true)
    (h : s.placeLegal = true) : s.controlLegal = true :=
  (State.controlLegal_exchanging hp).2 ⟨hl, by simp [State.linkOpLegal, ho, hs, hq], h⟩

theorem State.controlLegal_of_close {s : State} (hp : s.phase.exchanging = true) (ho : s.op = .closeOp) (hs : s.closing = true)
    (hl : s.link ≠ .closed) (hq : s.opstep = .tryPort) (h : s.placeLegal = true) : s.controlLegal = true :=
  (State.controlLegal_exchanging hp).2 ⟨hl, by simp [State.linkOpLegal, ho, hs, hq], h⟩

/-- The window goes to a slot that is sent, or past its sends. -/
theorem State.seekSlot_legal {s : State} (hp : s.phase = .transfer) (ho : s.op = .noOp) (hl : s.link ≠ .closed) :
    s.seekSlot.controlLegal = true := by
  have hx : s.phase.exchanging = true := by simp [hp, Phase.exchanging]
  rcases s.seekSlot_cases with ⟨hw, hs, e⟩ | ⟨-, -, e⟩ | ⟨-, -, e⟩ <;> rw [e] <;>
    refine State.controlLegal_of_noOp hx ho hl ?_
  · have hs' : ({ s with phase := .transfer, pstep := .send } : State).sendable = true := hs
    simp [State.placeLegal, hp, hw, hs', Nat.le_of_lt hw]
  · simp [State.placeLegal, hp]
  · simp [State.placeLegal, hp]

/-- LS.RECV returned `None`. -/
theorem State.recvNone_legal {s : State} (hp : s.phase.exchanging = true) (hl : s.link ≠ .closed) (h : s.placeLegal = true) :
    s.recvNone.controlLegal = true := by
  rcases s.recvNone_cases with ⟨ht, e⟩ | ⟨ht, e⟩ <;> rw [e]
  · rcases State.slotDone_cases { s with op := .noOp } with ⟨-, e⟩ | ⟨-, e⟩ <;> rw [e]
    · exact State.seekSlot_legal ht rfl hl
    · exact State.controlLegal_of_noOp hp rfl hl (State.placeLegal_engine (q := .report) ht h (by simp))
  · refine State.controlLegal_of_noOp hp rfl hl ?_
    rcases Phase.exchanging_iff.1 hp with hp | hp | hp
    · simp [State.placeLegal, hp]
    · simp [State.placeLegal, hp]
    · exact absurd hp ht

/-- LS.SEND returned. -/
theorem State.sendReturn_legal {s : State} (hp : s.phase.exchanging = true) (hs : s.pstep = .send) (hl : s.link ≠ .closed)
    (h : s.placeLegal = true) : s.sendReturn.controlLegal = true := by
  rcases s.sendReturn_cases with ⟨ht, e⟩ | ⟨ht, e⟩ <;> rw [e] <;> refine State.controlLegal_of_noOp hp rfl hl ?_
  · exact State.placeLegal_engine (q := .rxTimed) ht h (by simp)
  · rcases Phase.exchanging_iff.1 hp with hp | hp | hp
    · simpa [State.placeLegal, hp, hs] using h
    · simp [State.placeLegal, hp]
    · exact absurd hp ht

/-- LS.CLOSE returned: outside a run the link is closed. -/
theorem State.closeReturn_legal (s : State) : s.closeReturn.controlLegal = true := by
  rcases s.closeReturn_cases with ⟨-, -, e⟩ | ⟨-, e⟩ <;> rw [e] <;> simp [State.controlLegal]

/-- A frame was handed to the phase, and the drain goes on. -/
theorem State.accept_legal {s : State} (hp : s.phase.exchanging = true) (hl : s.link ≠ .closed) (h : s.placeLegal = true)
    (c : Handle) (m : Message) : (s.accept c m).controlLegal = true := by
  have hd : ({ s with pstep := .rxDrain } : State).placeLegal = true := by
    rcases Phase.exchanging_iff.1 hp with hp | hp | hp
    · simp [State.placeLegal, hp]
    · simp [State.placeLegal, hp]
    · exact State.placeLegal_engine (q := .rxDrain) hp h (by simp)
  unfold State.accept
  rcases State.consume_cases m
    { s with op := .noOp, pstep := .rxDrain, trace := .received c s.recvTimeout .frame :: s.trace } with
    ⟨rd, rl, wr, idx, -, -, e⟩ | ⟨rd, rl, wr, idx, -, -, e⟩ | e <;>
    rw [e] <;> exact State.controlLegal_of_noOp hp rfl hl hd

/-- A recovery between its close and its open has no channel. -/
theorem State.down_of_recovering {s : State} (h : s.controlLegal = true) (hr : s.recoverable = true)
    (hq : s.opstep = .recBringup ∨ s.opstep = .recOpen) : s.link = .down := by
  unfold State.recoverable at hr
  cases ho : s.op <;> simp only [ho, Bool.and_eq_true, decide_eq_true_eq, Bool.false_eq_true] at hr
  · rcases hq with hq | hq <;> simpa [State.controlLegal, hr, ho, hq] using h
  · obtain ⟨-, hop, -⟩ := (State.controlLegal_exchanging hr.1).1 h
    rcases hq with hq | hq <;> simp [State.linkOpLegal, State.transferOpLegal, ho, hq] at hop <;> exact hop.2
  · obtain ⟨-, hop, -⟩ := (State.controlLegal_exchanging hr.1).1 h
    rcases hq with hq | hq <;> simp [State.linkOpLegal, State.transferOpLegal, ho, hq] at hop <;> exact hop.2

/-- The recovery's steps between two operations' lines: where OP and PSTEP stay, OPSTEP and LINK alone decide. -/
theorem State.recovery_legal {s t : State} (h : s.controlLegal = true) (hr : s.recoverable = true)
    (ht : t = { s with opstep := t.opstep, link := t.link, chan := t.chan, script := t.script, trace := t.trace })
    (hq : t.opstep = .recClose ∧ t.link = s.link ∨ (t.opstep = .recBringup ∨ t.opstep = .recOpen) ∧ t.link = .down ∨
      t.opstep = .retry ∧ s.op = .sendOp ∧ t.link = .up)
    (ho : s.op = .openOp → t.opstep = .recClose → s.link = .closed) : t.controlLegal = true := by
  rw [ht]
  unfold State.recoverable at hr
  cases hop : s.op <;> simp only [hop, Bool.and_eq_true, Bool.or_eq_true, decide_eq_true_eq, Bool.false_eq_true] at hr
  · rcases hq with ⟨hq, hl⟩ | ⟨hq | hq, hl⟩ | ⟨-, hs, -⟩
    · simp [State.controlLegal, hr, hq, hl, ho hop hq]
    · simp [State.controlLegal, hr, hq, hl]
    · simp [State.controlLegal, hr, hq, hl]
    · rw [hop] at hs; cases hs
  · obtain ⟨hl, -, hp⟩ := (State.controlLegal_exchanging hr.1).1 h
    refine State.controlLegal_of_send hr.1 rfl hr.2 ?_ ?_ hp
    all_goals
      rcases hq with ⟨hq, hl'⟩ | ⟨hq | hq, hl'⟩ | ⟨hq, -, hl'⟩ <;> simp [State.transferOpLegal, hq, hl', hl]
  · obtain ⟨hl, -, hp⟩ := (State.controlLegal_exchanging hr.1).1 h
    refine State.controlLegal_of_recv hr.1 rfl hr.2 ?_ ?_ hp
    all_goals
      rcases hq with ⟨hq, hl'⟩ | ⟨hq | hq, hl'⟩ | ⟨-, hs, -⟩
      · simp [State.transferOpLegal, hq, hl', hl]
      · simp [State.transferOpLegal, hq, hl']
      · simp [State.transferOpLegal, hq, hl']
      · rw [hop] at hs; cases hs

end Sys2Proof.Machine
end

section
/-!
PROOFS. Every line keeps the invariant.
-/
namespace Sys2Proof.Machine

/-! ### A line keeps the invariant -/

/-- A run's line keeps everything but the control state. -/
theorem State.Line.sound {s t : State} (hl : s.Line t) (h : s.Sound) (hc : s.controlLegal = true) : t.Sound := by
  have open_unlinked : s.phase = .opening → s.link ≠ .up := by
    intro hp hu
    cases ho : s.op <;> cases hq : s.opstep <;> simp [State.controlLegal, hp, ho, hq, hu] at hc
  have reopen_unlinked : s.recoverable = true → s.opstep = .recBringup ∨ s.opstep = .recOpen → s.link ≠ .up := fun hr hq => by
    simp [State.down_of_recovering hc hr hq]
  cases hl with
  | wait => exact h
  | opened hp ho hq c rest => exact (h.opened (open_unlinked hp) c rest).congr rfl
  | openFailed hp ho hq rest => exact (h.openFailed (open_unlinked hp) rest).congr rfl
  | linkFailed hp ho hq rest =>
    rw [takeException_linkOpenFailed]
    exact ((h.openFailed (open_unlinked hp) rest).unlinked (open_unlinked hp) (l := .closed) (by simp)).congr rfl
  | lost hr hq hl => exact (h.unlinked (h.link_of_unlive hl) (l := .down) (by simp)).congr rfl
  | closedLost hr hq hl rest => exact (h.closed hl (l := .down) (by simp) rest).congr rfl
  | broughtUp hr hq rest =>
    have hn := (h.unheld (reopen_unlinked hr (.inl hq))).2
    exact (h.logged (e := .broughtUp s.cfg.bus s.cfg.bitrate) rfl (by simp [disciplined, hn, h.discipline]) rest).congr rfl
  | reopenedSend hr ho hq c rest => exact (h.opened (reopen_unlinked hr (.inr hq)) c rest).congr rfl
  | reopenFailedSend hr ho hq rest =>
    exact (h.openFailed (reopen_unlinked hr (.inr hq)) rest).congr (State.sendReturn_outline _)
  | reopenedRecv hr ho hq c rest => exact (h.opened (reopen_unlinked hr (.inr hq)) c rest).congr (State.recvNone_outline _)
  | reopenFailedRecv hr ho hq rest =>
    exact (h.openFailed (reopen_unlinked hr (.inr hq)) rest).congr (State.recvNone_outline _)
  | sendFailed hr ho hq hl rest => exact (h.sent hl false rest).congr rfl
  | sent hr ho hq hl ok rest => exact (h.sent hl ok rest).congr (State.sendReturn_outline _)
  | retryUnlinked hr ho hq hl => exact h.congr s.sendReturn_outline
  | recvFailed hr hl rest => exact (h.received hl .err rest).congr rfl
  | recvNothing hr hl rest => exact (h.received hl .nothing rest).congr (State.recvNone_outline _)
  | received hr hl hs hf => exact h.accept hl _ _
  | closeUnlinked hp ho hl =>
    have hu := h.unlinked (h.link_of_unlive hl) (l := .closed) (by simp)
    rcases s.closeReturn_cases with ⟨-, -, e⟩ | ⟨-, e⟩ <;> rw [e] <;> exact hu.congr rfl
  | @closed hp ho c hl rest =>
    have hu := h.closed hl (l := .closed) (by simp) rest
    rcases State.closeReturn_cases { s with script := rest, trace := .closed c :: s.trace } with ⟨-, -, e⟩ | ⟨-, e⟩ <;>
      rw [e] <;> exact hu.congr rfl
  | digestGap hp ho hq rest =>
    exact (h.logged (e := .delayed s.cfg.tDigestGap) rfl h.discipline rest).congr (State.digestGapDone_outline _)
  | lengthGap hp ho hq rest => exact (h.logged (e := .delayed s.cfg.tLengthGap) rfl h.discipline rest).congr rfl
  | enter hp ho =>
    exact { h with
      cursor_ge := toInt_neg_one.ge
      lastrep_ge := toInt_neg_one.ge
      lastrep_le := le_refl _
      wbase_ge := toInt_neg_one.ge
      wbase_le := le_refl _ }
  | window hp ho hq hcm => exact h.latched.congr (State.seekSlot_outline _)
  | reported hp ho hq hd => exact h.emitProgress.congr rfl
  | flushed hp ho hq hf => exact h.emitProgress
  | openCall | sendUnlinked | recvUnlinked | abortCall | exitCall | poll | digestBegin | digestSend | digestSeen | digestConfirmed
  | lengthBegin | lengthSend | lengthSeen | roundOver | slot | unreported | complete => exact h.congr rfl

/-- A run's line goes to a control state the block takes. -/
theorem State.Line.control {s t : State} (hl : s.Line t) (hc : s.controlLegal = true) : t.controlLegal = true := by
  -- what the control state says in a phase that sends and receives
  have place : s.phase.exchanging = true → s.link ≠ .closed ∧ s.placeLegal = true := fun hp =>
    ⟨((State.controlLegal_exchanging hp).1 hc).1, ((State.controlLegal_exchanging hp).1 hc).2.2⟩
  have of_send : s.recoverable = true → s.op = .sendOp → s.phase.exchanging = true ∧ s.pstep = .send := fun hr ho => by
    simpa [State.recoverable, ho] using hr
  have of_recv : s.recoverable = true → s.op = .recvOp →
      s.phase.exchanging = true ∧ (s.pstep = .rxTimed ∨ s.pstep = .rxDrain) :=
    fun hr ho => by simpa [State.recoverable, ho] using hr
  have digest : s.phase = .sendingDigest → s.phase.exchanging = true := fun hp => by simp [hp, Phase.exchanging]
  have length : s.phase = .sendingLength → s.phase.exchanging = true := fun hp => by simp [hp, Phase.exchanging]
  have engine : s.phase = .transfer → s.phase.exchanging = true := fun hp => by simp [hp, Phase.exchanging]
  cases hl with
  | wait => exact hc
  | openCall hp ho =>
    have hl : s.link = .closed := by simpa [State.controlLegal, hp, ho] using hc
    simp [State.controlLegal, hp, hl]
  | opened hp ho hq c rest =>
    exact State.controlLegal_of_noOp (by rfl) rfl (by simp [State.openReturn]) (by simp [State.placeLegal, State.openReturn])
  | openFailed hp ho hq rest =>
    have hl : s.link = .closed := by simpa [State.controlLegal, hp, ho, hq] using hc
    simp [State.controlLegal, hp, ho, hl]
  | linkFailed hp ho hq rest => simp [State.controlLegal]
  | lost hr hq hl =>
    exact State.recovery_legal hc hr rfl (.inr (.inl ⟨.inl rfl, rfl⟩)) fun _ hq => by cases hq
  | closedLost hr hq hl rest =>
    exact State.recovery_legal hc hr rfl (.inr (.inl ⟨.inl rfl, rfl⟩)) fun _ hq => by cases hq
  | broughtUp hr hq rest =>
    have hd := State.down_of_recovering hc hr (.inl hq)
    exact State.recovery_legal hc hr rfl (.inr (.inl ⟨.inr rfl, hd⟩)) fun _ hq => by cases hq
  | reopenedSend hr ho hq c rest => exact State.recovery_legal hc hr rfl (.inr (.inr ⟨rfl, ho, rfl⟩)) fun _ hq => by cases hq
  | reopenFailedSend hr ho hq rest =>
    obtain ⟨hp, hs⟩ := of_send hr ho
    exact State.sendReturn_legal hp hs (place hp).1 (place hp).2
  | reopenedRecv hr ho hq c rest =>
    obtain ⟨hp, hs⟩ := of_recv hr ho
    exact State.recvNone_legal hp (by simp) (place hp).2
  | reopenFailedRecv hr ho hq rest =>
    obtain ⟨hp, hs⟩ := of_recv hr ho
    exact State.recvNone_legal hp (place hp).1 (place hp).2
  | sendUnlinked hr ho hq hl =>
    exact State.recovery_legal hc hr rfl (.inl ⟨rfl, rfl⟩) fun ho' => by rw [ho] at ho'; cases ho'
  | sendFailed hr ho hq hl rest =>
    exact State.recovery_legal hc hr rfl (.inl ⟨rfl, rfl⟩) fun ho' => by rw [ho] at ho'; cases ho'
  | sent hr ho hq hl ok rest =>
    obtain ⟨hp, hs⟩ := of_send hr ho
    exact State.sendReturn_legal hp hs (place hp).1 (place hp).2
  | retryUnlinked hr ho hq hl =>
    obtain ⟨hp, hs⟩ := of_send hr ho
    exact State.sendReturn_legal hp hs (place hp).1 (place hp).2
  | recvUnlinked hr ho hq hl =>
    exact State.recovery_legal hc hr rfl (.inl ⟨rfl, rfl⟩) fun ho' => by rw [ho] at ho'; cases ho'
  | recvFailed hr hl rest =>
    obtain ⟨hp, ho, -, hs, -⟩ := State.receiving_iff.1 hr
    exact State.recovery_legal hc (State.recoverable_recv hp ho hs) rfl (.inl ⟨rfl, rfl⟩) fun ho' => by rw [ho] at ho'; cases ho'
  | recvNothing hr hl rest =>
    have hp := (State.receiving_iff.1 hr).1
    exact State.recvNone_legal hp (place hp).1 (place hp).2
  | @received hr c hl r rest f hs hf =>
    have hp := (State.receiving_iff.1 hr).1
    exact State.accept_legal (s := { s with script := rest }) hp (place hp).1 (place hp).2 _ _
  | closeUnlinked hp ho hl => exact s.closeReturn_legal
  | closed hp ho hl rest => exact State.closeReturn_legal _
  | abortCall hp ho hq ha =>
    exact State.controlLegal_of_close hp rfl (by simp [State.closing, hq]) (place hp).1 rfl (place hp).2
  | exitCall hp ho hq hf =>
    have hx := engine hp
    exact State.controlLegal_of_close hx rfl (by simp [State.closing, hp, hq]) (place hx).1 rfl (place hx).2
  | poll hp ho hq => exact State.controlLegal_of_recv hp rfl hq (place hp).1 rfl (place hp).2
  | digestBegin hp ho hq =>
    exact State.controlLegal_of_noOp (digest hp) ho (place (digest hp)).1 (by simp [State.placeLegal, hp])
  | digestSend hp ho hq hf =>
    have hx := digest hp
    exact State.controlLegal_of_send hx rfl hq (place hx).1 rfl (place hx).2
  | digestGap hp ho hq rest =>
    rcases State.digestGapDone_cases { s with script := rest, trace := .delayed s.cfg.tDigestGap :: s.trace } with
      ⟨hk, e⟩ | ⟨-, e⟩ <;> rw [e] <;> refine State.controlLegal_of_noOp (digest hp) ho (place (digest hp)).1 ?_
    · have hk : s.hsK.toNat < 3 := hk
      simp [State.placeLegal, hp, BitVec.toNat_add]
      omega
    · simp [State.placeLegal, hp]
  | digestSeen hp ho hq hf => simpa [State.controlLegal, ho] using (place (digest hp)).1
  | digestConfirmed hp ho =>
    have hl : s.link ≠ .closed := by simpa [State.controlLegal, hp, ho] using hc
    exact State.controlLegal_of_noOp (by rfl) ho hl (by simp [State.placeLegal])
  | lengthBegin hp ho hq =>
    exact State.controlLegal_of_noOp (length hp) ho (place (length hp)).1 (by simp [State.placeLegal, hp])
  | lengthSend hp ho hq =>
    have hx := length hp
    exact State.controlLegal_of_send hx rfl hq (place hx).1 rfl (place hx).2
  | lengthGap hp ho hq rest =>
    exact State.controlLegal_of_noOp (length hp) ho (place (length hp)).1 (by simp [State.placeLegal, State.lengthGapDone, hp])
  | lengthSeen hp ho hq hf => simpa [State.controlLegal, ho] using (place (length hp)).1
  | roundOver hp ho hq =>
    rcases hp with hp | hp
    · exact State.controlLegal_of_noOp (digest hp) ho (place (digest hp)).1 (by simp [State.placeLegal, hp])
    · exact State.controlLegal_of_noOp (length hp) ho (place (length hp)).1 (by simp [State.placeLegal, hp])
  | enter hp ho =>
    have hl : s.link ≠ .closed := by simpa [State.controlLegal, hp, ho] using hc
    exact State.controlLegal_of_noOp (by rfl) ho hl (by simp [State.placeLegal])
  | window hp ho hq hcm => exact State.seekSlot_legal hp ho (place (engine hp)).1
  | slot hp ho hq hf =>
    have hx := engine hp
    exact State.controlLegal_of_send hx rfl hq (place hx).1 rfl (place hx).2
  | reported hp ho hq hd =>
    have hx := engine hp
    exact State.controlLegal_of_noOp hx ho (place hx).1 (State.placeLegal_engine (q := .boundary) hp (place hx).2 (by simp))
  | unreported hp ho hq hd =>
    have hx := engine hp
    exact State.controlLegal_of_noOp hx ho (place hx).1 (State.placeLegal_engine (q := .boundary) hp (place hx).2 (by simp))
  | complete hp ho hq hcm =>
    have hx := engine hp
    exact State.controlLegal_of_noOp hx ho (place hx).1 (State.placeLegal_engine (q := .exit) hp (place hx).2 (by simp))
  | flushed hp ho hq hf => exact State.controlLegal_of_noOp (engine hp) ho (place (engine hp)).1 (place (engine hp)).2

/-- Operations are selected in a run only. -/
theorem State.Selects.running {s : State} {i : Instr} (h : s.Selects i) : s.phase.atRest = false := by
  have hx : s.phase.exchanging = true → s.phase.atRest = false := by cases s.phase <;> simp [Phase.exchanging, Phase.atRest]
  cases h <;> simp_all [Phase.atRest]

end Sys2Proof.Machine
end

section
/-!
PROOFS. Every step keeps the invariant (O49).
-/
namespace Sys2Proof.Machine

/-! ### Every turn keeps the invariant -/

theorem State.Line.inv {s t : State} (hl : s.Line t) (h : s.Inv) (hr : s.phase.atRest = false) : t.Inv :=
  (hl.sound (h.sound hr) h.control).inv (hl.control h.control)

/-- Outside a run no link is up. -/
theorem State.Inv.closed_atRest {s : State} (h : s.Inv) (hr : s.phase.atRest = true) : s.link = .closed := by
  have hc := h.control
  cases hp : s.phase <;> simp [hp, Phase.atRest] at hr <;> simpa [State.controlLegal, hp] using hc

/-- At rest the control state is the closed link. -/
theorem State.controlLegal_atRest {s : State} (hr : s.phase.atRest = true) (hl : s.link = .closed) : s.controlLegal = true := by
  cases hp : s.phase <;> simp [hp, Phase.atRest] at hr <;> simp [State.controlLegal, hp, hl]

/-- An image START accepts is no longer than 7 x 2^26 bytes. -/
theorem State.imgLen_le_of_configCheck {s : State} (h : s.configCheck = none) : s.imgLen.toNat ≤ maxImageLen := by
  unfold State.configCheck at h
  by_contra hgt
  simp only [if_pos (Nat.lt_of_not_le hgt)] at h
  repeat' split at h
  all_goals cases h

/-- BLOCKCOUNT in a run: no bit of the count is lost. -/
theorem toNat_setWidth_blockCountOf {len : BitVec 32} (h : len.toNat ≤ maxImageLen) :
    ((blockCountOf len).setWidth 27).toNat = (len.toNat + 6) / 7 := by
  unfold maxImageLen at h
  simp only [blockCountOf, BitVec.toNat_setWidth, BitVec.toNat_ofNat]
  omega

/-- A fresh run with BLOCKCOUNT, PHASE and ERR as START sets them. -/
theorem State.Inv.freshRun {s : State} (h : s.Inv) (n : BitVec 27) (p : Phase) (e : Byte)
    (hn : p.atRest = false → s.configCheck = none ∧ n.toNat = (s.imgLen.toNat + 6) / 7)
    (hc : ({ s.freshRun with blockcount := n, phase := p, err := e } : State).controlLegal = true) :
    ({ s.freshRun with blockcount := n, phase := p, err := e } : State).Inv := by
  exact { h with
    cursor_ge := toInt_neg_one.ge
    lastrep_ge := toInt_neg_one.ge
    lastrep_le := le_refl _
    wbase_ge := toInt_neg_one.ge
    wbase_le := le_refl _
    config := hn
    control := hc }

/-- START leaves a state in a run, or a run that ended at once. -/
theorem State.Inv.start {s t : State} (h : s.Inv) (he : exec .start s = .next t) : t.Inv := by
  simp only [exec, execStart] at he
  split at he
  · rename_i hr
    have hl := h.closed_atRest hr
    split at he
    · rename_i c hcc
      cases he
      exact h.freshRun 0 .cfgError _ (fun hr => by cases hr) (State.controlLegal_atRest rfl hl)
    · rename_i hcc
      cases he
      refine h.freshRun _ .opening 0 (fun _ => ⟨hcc, toNat_setWidth_blockCountOf (State.imgLen_le_of_configCheck hcc)⟩) ?_
      simp [State.controlLegal, State.freshRun, hl]
  · cases he
    exact h

theorem State.Inv.abort {s t : State} (h : s.Inv) (he : exec .abort s = .next t) : t.Inv := by
  simp only [exec, execAbort] at he
  split at he <;> cases he
  · exact h
  · exact { h with }

/-- A host write at rest. -/
theorem State.Inv.hostWrite {s : State} (h : s.Inv) (w : HostWrite) : (s.hostWrite w).Inv := by
  cases hr : s.phase.atRest with
  | false => rw [State.hostWrite_running w hr]; exact h
  | true =>
    have himg := s.hostWrite_image_wf w h.image
    rw [State.hostWrite_atRest w hr] at himg ⊢
    have hframe := s.applyWrite_frame w
    generalize s.applyWrite w = t at *
    rw [hframe]
    exact { h with
      image := himg
      config := fun hn => absurd (hr.symm.trans hn) (by simp)
      control := State.controlLegal_atRest hr (h.closed_atRest hr) }

theorem State.Inv.hostAccess {s t : State} {a : HostAccess} (h : s.Inv) (he : hostAccess a s = .next t) : t.Inv := by
  rcases hostAccess_cases he with ⟨w, -, rfl⟩ | ⟨r, v, rfl⟩ | ⟨x, v, rfl⟩ | rfl
  · exact h.hostWrite w
  · exact { h with }
  · exact { h with }
  · exact h

theorem State.Inv.hardReset {s : State} (h : s.Inv) : s.hardReset.Inv := by
  exact {
    image := State.reset_image_wf
    cursor_ge := toInt_neg_one.ge
    lastrep_ge := toInt_neg_one.ge
    lastrep_le := le_refl _
    wbase_ge := toInt_neg_one.ge
    wbase_le := le_refl _
    channel := rfl
    linked := by simp [State.hardReset, State.reset]
    discipline := h.discipline
    config := fun hr => by cases hr
    control := rfl }

theorem State.Inv.receiveFrame {s t : State} {m : Message} (h : s.Inv) (he : receiveFrame m s = .next t) : t.Inv := by
  rcases receiveFrame_cases he with rfl | ⟨c, hr, hl, rfl⟩
  · exact h
  have hp := (State.receiving_iff.1 hr).1
  have hrun : s.phase.atRest = false := by
    rcases Phase.exchanging_iff.1 hp with hp | hp | hp <;> simp [hp, Phase.atRest]
  obtain ⟨hlink, -, hplace⟩ := (State.controlLegal_exchanging hp).1 h.control
  rcases s.dropReply_cases with e | ⟨r, rest, -, e⟩ <;> rw [e]
  · exact ((h.sound hrun).accept hl m s.script).inv (State.accept_legal hp hlink hplace c m)
  · exact ((h.sound hrun).accept hl m rest).inv (State.accept_legal (s := { s with script := rest }) hp hlink hplace c m)

/-- Settles O49: each turn keeps the invariant, the block's own by its lines. -/
theorem invPreserved : Obligations.InvPreserved := by
  intro s t h hstep
  refine step_keeps (P := State.Inv) (turns := fun s l n h => { h with }) (command := ?_) (host := fun s t a h he => h.hostAccess he)
    (reset := fun s h => h.hardReset) (selected := fun s t i h hs he => (State.line_of_selects hs he).inv h hs.running)
    (frame := fun s t m h he => h.receiveFrame he) h hstep
  intro s t v i h hi he
  rcases decodeCommand_ok hi with rfl | rfl
  · exact h.start he
  · exact h.abort he

end Sys2Proof.Machine
end

section
/-!
PROOFS. TXF while a send is in progress (O58), and CURSOR in a run (O52).
-/
namespace Sys2Proof.Machine

/-! ### OP after each return -/

@[simp] theorem State.sendReturn_op (s : State) : s.sendReturn.op = .noOp := by
  rcases s.sendReturn_cases with ⟨-, e⟩ | ⟨-, e⟩ <;> rw [e]

@[simp] theorem State.recvNone_op (s : State) : s.recvNone.op = .noOp := by rw [s.recvNone_frame]

@[simp] theorem State.closeReturn_op (s : State) : s.closeReturn.op = .noOp := by
  rcases s.closeReturn_cases with ⟨-, -, e⟩ | ⟨-, e⟩ <;> rw [e]

@[simp] theorem State.seekSlot_op (s : State) : s.seekSlot.op = s.op := by rw [s.seekSlot_frame]

@[simp] theorem State.digestGapDone_op (s : State) : s.digestGapDone.op = s.op := by
  rcases s.digestGapDone_cases with ⟨-, e⟩ | ⟨-, e⟩ <;> rw [e]

@[simp] theorem State.consume_op (m : Message) (s : State) : (s.consume m).op = s.op := by
  rcases s.consume_cases m with ⟨_, _, _, _, -, -, e⟩ | ⟨_, _, _, _, -, -, e⟩ | e <;> rw [e]

@[simp] theorem State.accept_op (c : Handle) (m : Message) (s : State) : (s.accept c m).op = .noOp := by
  simp [State.accept]

/-! ### TXF while a send is in progress -/

/-- Where no send is in progress nothing is asked of TXF. -/
theorem State.txfSettled_of_op {s : State} (ho : s.op ≠ .sendOp) : s.txfSettled := fun h => absurd h ho

theorem State.txfSettled_digest {s : State} (hp : s.phase = .sendingDigest) (hf : s.digestFrame = some s.txf) : s.txfSettled :=
  fun _ => ⟨fun _ => hf, fun hp' => by simp [hp] at hp', fun hp' => by simp [hp] at hp'⟩

theorem State.txfSettled_length {s : State} (hp : s.phase = .sendingLength) (hf : s.txf = encodeInfoLen s.cfg.baseId s.imgLen) :
    s.txfSettled :=
  fun _ => ⟨fun hp' => by simp [hp] at hp', fun _ => hf, fun hp' => by simp [hp] at hp'⟩

theorem State.txfSettled_engine {s : State} (hp : s.phase = .transfer) (hf : s.candidateFrame = some s.txf) : s.txfSettled :=
  fun _ => ⟨fun hp' => by simp [hp] at hp', fun hp' => by simp [hp] at hp', fun _ => hf⟩

/-- Outside a run no phase has encoded anything. -/
theorem State.txfSettled_atRest {s : State} (hr : s.phase.atRest = true) : s.txfSettled := by
  refine fun _ => ⟨fun hp => ?_, fun hp => ?_, fun hp => ?_⟩ <;> simp [hp, Phase.atRest] at hr

/-- A send in progress keeps its frame through failures and the recovery: only the call of LS.SEND encodes one. -/
theorem State.Line.txfSettled {s t : State} (hl : s.Line t) (h : s.txfSettled) : t.txfSettled := by
  cases hl with
  | wait => exact h
  | digestSend hp ho hq hf => exact State.txfSettled_digest hp hf
  | lengthSend hp ho hq => exact State.txfSettled_length hp rfl
  | slot hp ho hq hf => exact State.txfSettled_engine hp hf
  | lost | closedLost | broughtUp | reopenedSend | sendUnlinked | sendFailed | recvUnlinked | recvFailed => exact fun ho => h ho
  | openFailed _ ho | unreported _ ho | complete _ ho | roundOver _ ho | lengthSeen _ ho | lengthGap _ ho | lengthBegin _ ho
  | digestConfirmed _ ho | digestSeen _ ho | digestBegin _ ho | enter _ ho | reported _ ho | flushed _ ho | digestGap _ ho
  | window _ ho =>
    exact State.txfSettled_of_op (by simp [State.lengthGapDone, ho])
  | openCall | opened | linkFailed | reopenFailedSend | reopenedRecv | reopenFailedRecv | sent | retryUnlinked | recvNothing
  | received | closeUnlinked | closed | abortCall | exitCall | poll =>
    exact State.txfSettled_of_op (by simp [State.openReturn])

/-- Settles O58: the call of LS.SEND encodes the frame, and until its return nothing it was encoded from changes. -/
theorem sentFrameStaysEncoded : Obligations.SentFrameStaysEncoded := by
  intro s t _ h hstep
  refine step_keeps (P := State.txfSettled) (turns := fun s l n h ho => h ho) (command := ?_) (host := ?_)
    (reset := fun s _ => State.txfSettled_atRest rfl) (selected := fun s t i h hs he => (State.line_of_selects hs he).txfSettled h)
    (frame := ?_) h hstep
  · intro s t v i h hi he
    rcases decodeCommand_ok hi with rfl | rfl
    · simp only [exec, execStart] at he
      repeat' split at he
      all_goals cases he
      · exact State.txfSettled_of_op (by simp [State.freshRun])
      · exact State.txfSettled_of_op (by simp [State.freshRun])
      · exact h
    · simp only [exec, execAbort] at he
      split at he <;> cases he
      · exact h
      · exact fun ho => h ho
  · intro s t a h he
    rcases hostAccess_cases he with ⟨w, -, rfl⟩ | ⟨r, v, rfl⟩ | ⟨x, v, rfl⟩ | rfl
    · cases hr : s.phase.atRest with
      | true =>
        refine State.txfSettled_atRest ?_
        rw [State.hostWrite_atRest w hr, s.applyWrite_frame w]
        exact hr
      | false => rwa [State.hostWrite_running w hr]
    · exact fun ho => h ho
    · exact fun ho => h ho
    · exact h
  · intro s t m h he
    rcases receiveFrame_cases he with rfl | ⟨c, -, -, rfl⟩
    · exact h
    · exact State.txfSettled_of_op (by simp)

/-! ### CURSOR in a run -/

@[simp] theorem State.sendReturn_cursor (s : State) : s.sendReturn.cursor = s.cursor :=
  congrArg (fun o => o.2.1) s.sendReturn_outline

@[simp] theorem State.recvNone_cursor (s : State) : s.recvNone.cursor = s.cursor :=
  congrArg (fun o => o.2.1) s.recvNone_outline

@[simp] theorem State.seekSlot_cursor (s : State) : s.seekSlot.cursor = s.cursor :=
  congrArg (fun o => o.2.1) s.seekSlot_outline

@[simp] theorem State.digestGapDone_cursor (s : State) : s.digestGapDone.cursor = s.cursor :=
  congrArg (fun o => o.2.1) s.digestGapDone_outline

@[simp] theorem State.closeReturn_cursor (s : State) : s.closeReturn.cursor = s.cursor := by
  rcases s.closeReturn_cases with ⟨-, -, e⟩ | ⟨-, e⟩ <;> rw [e]

/-- What a report says of the cursor does not wrap in 33 bits. -/
theorem toInt_reportedCursor (wr : Bool) (idx : BitVec 32) : (reportedCursor wr idx).toInt = reportedIndex wr idx := by
  have hi : (idx.setWidth 33).toInt = idx.toNat := by
    rw [BitVec.toInt_eq_toNat_of_lt] <;> simp <;> omega
  cases wr
  · have hb := idx.isLt
    simp only [reportedCursor, reportedIndex, BitVec.toInt_sub, hi, Bool.false_eq_true, if_false]
    simp [Int.bmod_def]
    omega
  · simpa [reportedCursor, reportedIndex] using hi

/-- CUR.UPDATE is the signed maximum, for every cursor. -/
theorem toInt_cursorUpdate (cur : Signed33) (wr : Bool) (idx : BitVec 32) :
    (cursorUpdate cur wr idx).toInt = max cur.toInt (reportedIndex wr idx) := by
  rw [← toInt_reportedCursor]
  unfold cursorUpdate
  split <;> rename_i h <;> rw [BitVec.slt_iff_toInt_lt] at h <;> omega

/-- A report that moves the cursor moves it to what it says. -/
theorem toInt_cursorUpdate_of_ne {cur : Signed33} {wr : Bool} {idx : BitVec 32} (h : cursorUpdate cur wr idx ≠ cur) :
    (cursorUpdate cur wr idx).toInt = reportedIndex wr idx := by
  have hne : (cursorUpdate cur wr idx).toInt ≠ cur.toInt := fun he => h (BitVec.eq_of_toInt_eq he)
  rw [toInt_cursorUpdate] at hne ⊢
  omega

/-- The outstanding receive is answered with a PROGRESS frame that makes `cur` of the cursor. -/
def State.reports (s : State) (cur : Signed33) : Prop :=
  s.phase = .transfer ∧ s.receiving = true ∧
    ∃ r rest f rd rl wr idx, s.script = .reply r :: rest ∧ r.received = .frame f ∧
      decodeMessage s.cfg.baseId f = .progress rd rl wr idx ∧ cur = cursorUpdate s.cursor wr idx

/-- Outside the engine's entry a line leaves the cursor, or gives it a report. -/
theorem State.Line.cursor {s t : State} (hl : s.Line t) (hp : s.phase ≠ .lengthConfirmed) :
    t.cursor = s.cursor ∨ s.reports t.cursor := by
  cases hl with
  | enter hp' => exact absurd hp' hp
  | @received hr c hl r rest f hs hf =>
    unfold State.accept
    rcases State.consume_cases (decodeMessage s.cfg.baseId f)
      { s with
        script := rest, op := .noOp, pstep := .rxDrain
        trace := .received c (State.recvTimeout { s with script := rest }) .frame :: s.trace } with
      ⟨rd, rl, wr, idx, -, -, e⟩ | ⟨rd, rl, wr, idx, hm, ht, e⟩ | e
    · exact .inl (by rw [e])
    · exact .inr ⟨ht, hr, r, rest, f, rd, rl, wr, idx, hs, hf, hm, by rw [e]⟩
    · exact .inl (by rw [e])
  | wait | openCall | opened | openFailed | linkFailed | lost | closedLost | broughtUp | reopenedSend | reopenFailedSend
  | reopenedRecv | reopenFailedRecv | sendUnlinked | sendFailed | sent | retryUnlinked | recvUnlinked | recvFailed | recvNothing
  | closeUnlinked | closed | abortCall | exitCall | poll | digestBegin | digestSend | digestGap | digestSeen | digestConfirmed
  | lengthBegin | lengthSend | lengthGap | lengthSeen | roundOver | window | slot | reported | unreported | complete | flushed =>
    exact .inl (by simp [State.openReturn, State.lengthGapDone])

/-- At an Emit no receive is outstanding. -/
theorem State.not_receiving_atEmit {s : State} (h : s.atEmit = true) : s.receiving = false := by
  have ho : s.op = .noOp := by
    simp only [State.atEmit, Bool.and_eq_true, decide_eq_true_eq] at h
    exact h.1
  simp [State.receiving, ho]

/-- The host moves no cursor in a run: START is ignored. -/
theorem cursor_of_command {s t : State} {i : Instr} (hi : i = .start ∨ i = .abort) (hr : s.phase.atRest = false)
    (he : exec i s = .next t) : t.cursor = s.cursor := by
  rcases hi with rfl | rfl <;> simp [exec, execStart, execAbort, hr] at he <;> subst he <;> rfl

theorem cursor_of_hostAccess {s t : State} {a : HostAccess} (he : hostAccess a s = .next t) : t.cursor = s.cursor := by
  rcases hostAccess_cases he with ⟨w, -, rfl⟩ | ⟨r, v, rfl⟩ | ⟨x, v, rfl⟩ | rfl
  · unfold State.hostWrite
    split
    · rw [s.applyWrite_frame w]
    · rfl
  · rfl
  · rfl
  · rfl

/-- A step of a run that the reset does not end leaves the cursor of the computation's end, or gives it a report. -/
theorem step_cursor {s t u : State} (hr : s.phase.atRest = false) (hn : s.noReset) (hu : s.drawTurn.settle settleSteps = .next u)
    (hp : u.phase ≠ .lengthConfirmed) (h : step s = .next t) : t.cursor = s.cursor ∨ u.reports t.cursor := by
  have hd : s.drawTurn.cursor = s.cursor := by rw [s.drawTurn_frame]
  rcases step_cases h with ⟨v, rest, i, -, hi, he⟩ | ⟨a, rest, -, he⟩ | ⟨rest, hx, -⟩ | ⟨w, -, hw, hc, -, hl⟩
  · refine .inl ((cursor_of_command (decodeCommand_ok hi) ?_ he).trans hd)
    rw [s.drawTurn_frame]; exact hr
  · exact .inl ((cursor_of_hostAccess he).trans hd)
  · exact absurd hx (hn rest)
  · obtain rfl : w = u := by rw [hu] at hw; cases hw; rfl
    have hwc : w.cursor = s.cursor := by rw [hc.outside]; exact hd
    rcases hl with (rfl | ⟨x, rest, -, rfl⟩) | ⟨u', i, hu', -, hf, he⟩
    · exact .inl hwc
    · exact .inl hwc
    · rcases hu' with rfl | ⟨hem, x, rest, -, rfl⟩
      · exact ((State.line_of_fetch hf he).cursor hp).imp_left fun e => e.trans hwc
      · rcases (State.line_of_fetch hf he).cursor hp with e | ⟨-, hrv, -⟩
        · exact .inl (e.trans hwc)
        · exact absurd ((State.not_receiving_atEmit hem).symm.trans hrv) (by simp)

/-- Settles O52: of the block's lines only the receipt of a PROGRESS frame in the engine writes the cursor, as a maximum. -/
theorem cursorChangedOnlyByReports : Obligations.CursorChangedOnlyByReports := by
  intro s t u hr hn hu hp h
  have hc := (State.computes_of_settle hu).outside
  have hcur : u.cursor = s.cursor := by rw [hc, s.drawTurn_frame]
  have hcfg : u.cfg = s.cfg := by rw [hc, s.drawTurn_frame]
  refine ⟨hcur, ?_⟩
  rcases step_cursor hr hn hu hp h with e | ⟨ht, hrv, r, rest, f, rd, rl, wr, idx, hs, hf, hm, e⟩
  · exact ⟨by rw [e], fun hne => absurd e hne⟩
  · rw [hcur] at e
    refine ⟨e ▸ le_cursorUpdate s.cursor wr idx, fun hne => ⟨ht, hrv, r, rest, f, rd, rl, wr, idx, hs, hf, hcfg ▸ hm, ?_⟩⟩
    rw [e] at hne ⊢
    exact toInt_cursorUpdate_of_ne hne

end Sys2Proof.Machine
end

section
/-!
PROOFS. The block at rest (O3), ABORT (O24), host writes (O54) and host reads (O55).
-/
namespace Sys2Proof.Machine

/-! ### At rest -/

theorem State.atEmit_atRest {s : State} (h : s.phase.atRest = true) : s.atEmit = false := by
  cases hp : s.phase <;> simp [hp, Phase.atRest] at h <;> simp [State.atEmit, hp]

theorem State.serve_atRest {s : State} (h : s.phase.atRest = true) : s.serve = .next s.dropReply := by
  simp [State.serve, h]

/-- Settles O3: at rest there is nothing to compute and nothing to emit. -/
theorem atRestTakesNoStep : Obligations.AtRestTakesNoStep := by
  intro s h
  have hc := State.computing_atRest h
  refine ⟨fun hs hl => ?_, fun rest hs => ?_, fun r rest hs => ?_⟩
  · rw [step_silent hs hl, State.settle_of_not_computing hc]
    simp only [andThen, State.serve_atRest h, State.dropReply, hs]
  · rw [step_tick_settled hs hc, State.giveTime, State.atEmit_atRest (s := { s with script := rest }) h]
    rfl
  · rw [step_reply hs, State.settle_of_not_computing hc]
    simp only [andThen, State.serve_atRest h, State.dropReply_reply hs]

/-! ### ABORT -/

theorem exec_abort_running {s : State} (h : s.phase.atRest = false) : exec .abort s = .next { s with abortReq := true } := by
  simp [exec, execAbort, h]

theorem exec_abort_atRest {s : State} (h : s.phase.atRest = true) : exec .abort s = .next s := by
  simp [exec, execAbort, h]

/-- Settles O24, by the one test ABORT makes. -/
theorem abortLatchedWhileRunning : Obligations.AbortLatchedWhileRunning :=
  fun _ => ⟨exec_abort_running, exec_abort_atRest⟩

/-! ### Host writes -/

theorem DigestRegs.at_put_same (d : DigestRegs) (k : Fin 4) (v : BitVec 32) : (d.put k v).at k = v := by
  fin_cases k <;> rfl

theorem DigestRegs.at_put_other (d : DigestRegs) {j k : Fin 4} (v : BitVec 32) (h : j ≠ k) : (d.put k v).at j = d.at j := by
  fin_cases k <;> fin_cases j <;> simp_all [DigestRegs.put, DigestRegs.at]

/-- A host write's step. -/
theorem step_hostWrite {s : State} {w : HostWrite} {rest : List Turn} (h : s.script = .host (.write w) :: rest) :
    step s = .next (State.hostWrite w { s with script := rest }) := by
  rw [step_host h]
  rfl

/-- Settles O54: a host write is `hostWrite`, which looks at PHASE and then writes the one register. -/
theorem hostWritesOutsideARun : Obligations.HostWritesOutsideARun := by
  intro s w rest hs
  rw [step_hostWrite hs]
  refine ⟨fun hr => ?_, fun hr => ?_⟩
  · rw [State.hostWrite_running w (s := { s with script := rest }) hr]
  · rw [State.hostWrite_atRest w (s := { s with script := rest }) hr]
    refine ⟨_, rfl, State.applyWrite_frame w _, ?_⟩
    cases w with
    | digest k v => exact ⟨rfl, rfl, rfl, DigestRegs.at_put_same _ k v, fun j hj => DigestRegs.at_put_other _ v hj⟩
    | image a b =>
      exact fun _ => ⟨rfl, rfl, rfl, State.imgByte_applyWrite_same _ a b, fun x hx => State.imgByte_applyWrite_other _ b hx⟩
    | baseId | bitrate | bus | window | gran | tDigestGap | tLengthGap | tHsRx | tPace | tDrain | imgLen => rfl

/-! ### Words of several fields -/

/-- A field above `k` bits of a word whose lower part is below `2 ^ k`. -/
theorem or_shiftLeft_eq_add {x k : Nat} (y : Nat) (h : x < 2 ^ k) : x ||| y <<< k = x + 2 ^ k * y := by
  rw [Nat.or_comm, Nat.shiftLeft_eq, Nat.mul_comm y, ← Nat.two_pow_add_eq_or_of_lt h, Nat.add_comm]

theorem toNat_append_eq {m n : Nat} (x : BitVec m) (y : BitVec n) : (x ++ y).toNat = y.toNat + 2 ^ n * x.toNat := by
  rw [BitVec.toNat_append, Nat.or_comm, or_shiftLeft_eq_add _ y.isLt]

/-- A field placed in STATUS loses no bit. -/
theorem toNat_setWidth_shiftLeft {w k : Nat} (v : BitVec w) (hw : w + k ≤ 16) : (v.setWidth 16 <<< k).toNat = v.toNat <<< k := by
  have hv : v.toNat <<< k < 2 ^ 16 := by
    rw [Nat.shiftLeft_eq]
    calc v.toNat * 2 ^ k < 2 ^ w * 2 ^ k := Nat.mul_lt_mul_of_pos_right v.isLt (Nat.two_pow_pos k)
      _ = 2 ^ (w + k) := (Nat.pow_add ..).symm
      _ ≤ 2 ^ 16 := Nat.pow_le_pow_right (by decide) hw
  rw [BitVec.toNat_shiftLeft, BitVec.toNat_setWidth_of_le (by omega), Nat.mod_eq_of_lt hv]

/-- STATUS as a number: its fields lie one above the other. -/
theorem toNat_statusWord (s : State) : s.statusWord.toNat =
    s.phase.code.toNat + 16 * s.link.code.toNat + 64 * s.digestOk.toNat + 128 * s.lengthOk.toNat + 256 * s.abortReq.toNat := by
  have hp := s.phase.code.isLt
  have hl := s.link.code.isLt
  have hd := s.digestOk.toNat_lt
  have hn := s.lengthOk.toNat_lt
  have ha := s.abortReq.toNat_lt
  unfold State.statusWord
  simp only [BitVec.toNat_or]
  rw [toNat_setWidth_shiftLeft _ (by decide), toNat_setWidth_shiftLeft _ (by decide), toNat_setWidth_shiftLeft _ (by decide),
    toNat_setWidth_shiftLeft _ (by decide), BitVec.toNat_setWidth_of_le (by decide)]
  simp only [BitVec.toNat_ofBool]
  rw [or_shiftLeft_eq_add (k := 4) _ (by omega), or_shiftLeft_eq_add (k := 6) _ (by omega),
    or_shiftLeft_eq_add (k := 7) _ (by omega), or_shiftLeft_eq_add (k := 8) _ (by omega)]
  norm_num

theorem Fresh.toNat_word (f : Fresh) : f.word.toNat =
    f.idx.toNat + 2 ^ 32 * f.wr.toNat + 2 ^ 33 * f.rl.toNat + 2 ^ 34 * f.rd.toNat + 2 ^ 35 * f.valid.toNat := by
  simp only [Fresh.word, toNat_append_eq, BitVec.toNat_ofBool]
  omega

/-! ### Host reads -/

/-- Numbers from 0x18 up name no register. -/
theorem HostReg.ofNumber_eq_none {n : Byte} (h : 0x18 ≤ n.toNat) : HostReg.ofNumber n = none := by
  unfold HostReg.ofNumber
  split
  case h_25 => rfl
  all_goals omega

/-- Settles O55: a host read is recorded, and the value recorded is `hostValue`, register by register. -/
theorem hostReadsHaveNoSideEffect : Obligations.HostReadsHaveNoSideEffect := by
  intro s rest
  refine ⟨fun r hs => ?_, fun a hs => ?_, fun n r hs hn => ?_, fun n hs hn => ?_, ?_, ?_, by decide, by decide, by decide, by decide,
    by decide⟩
  · rw [step_host hs]; rfl
  · rw [step_host hs]; rfl
  · rw [step_host hs]; simp only [State.serveHost, hostAccess, hn]; rfl
  · rw [step_host hs]
    simp only [State.serveHost, hostAccess, HostReg.ofNumber_eq_none hn]
  · refine ⟨rfl, fun n r v h => ?_⟩
    have hlt := (List.getElem?_eq_some_iff.1 h).1
    unfold HostReg.ofNumber
    generalize n.toNat = k at *
    simp only [List.length_cons, List.length_nil] at hlt
    -- every register's value is its own definition, but for STATUS, whose fields are added up
    interval_cases k
    · cases h
      exact ⟨rfl, rfl⟩
    · cases h
      exact ⟨rfl, by rw [State.hostValue, toNat_statusWord]⟩
    all_goals
      cases h
      exact ⟨rfl, rfl⟩
  · refine ⟨?_, rfl, rfl, ?_, ?_, rfl, rfl, rfl, rfl, rfl, rfl⟩
    · simp only [State.hostValue, toNat_append_eq, BitVec.toNat_ofBool, pow_one]
    · simp only [State.hostValue, Fresh.toNat_word]
    · simp only [State.hostValue, frameWord, toNat_append_eq, HostValue.word.injEq]
      omega

end Sys2Proof.Machine
end

section
/-!
PROOFS. What a port request keeps, and the handshake flags (O57).
-/
namespace Sys2Proof.Machine

/-! ### What a port request keeps -/

section
variable {α : Type} {φ : State → α}

/-- A reading of the state that no port's answer changes by itself: it looks at none of the script, the channel and the record. -/
def PortBlind (φ : State → α) : Prop :=
  ∀ (s : State) (l : List Turn) (c : Option Handle) (k : Link) (e : List Event),
    φ { s with script := l, chan := c, link := k, trace := e } = φ s

theorem portOpen_keeps (hφ : PortBlind φ) {s t : State} {ok fail : State → State} (h : portOpen s ok fail = .next t)
    (hok : ∀ u, φ (ok u) = φ u) (hfail : ∀ u, φ (fail u) = φ u) : φ t = φ s := by
  rcases portOpen_cases h with rfl | ⟨r, rest, -, ⟨c, -, rfl⟩ | ⟨-, rfl⟩⟩
  · rfl
  · rw [hok]; exact hφ s _ _ _ _
  · rw [hfail]; exact hφ s _ _ _ _

theorem portSend_keeps (hφ : PortBlind φ) {s t : State} {c : Handle} {ok fail : State → State}
    (h : portSend s c ok fail = .next t) (hok : ∀ u, φ (ok u) = φ u) (hfail : ∀ u, φ (fail u) = φ u) : φ t = φ s := by
  rcases portSend_cases h with rfl | ⟨r, rest, -, ⟨-, rfl⟩ | ⟨-, rfl⟩⟩
  · rfl
  · rw [hok]; exact hφ s _ _ _ _
  · rw [hfail]; exact hφ s _ _ _ _

theorem portRecv_keeps (hφ : PortBlind φ) {s t : State} {c : Handle} {got : RxFrame → State → State}
    {nothing fail : State → State} (h : portRecv s c got nothing fail = .next t)
    (hgot : ∀ f u, φ (got f u) = φ u) (hnothing : ∀ u, φ (nothing u) = φ u)
    (hfail : ∀ u, φ (fail u) = φ u) : φ t = φ s := by
  rcases portRecv_cases h with rfl | ⟨r, rest, -, ⟨f, -, rfl⟩ | ⟨-, rfl⟩ | ⟨-, rfl⟩⟩
  · rfl
  · rw [hgot]; exact hφ s _ _ _ _
  · rw [hnothing]; exact hφ s _ _ _ _
  · rw [hfail]; exact hφ s _ _ _ _

theorem portDone_keeps (hφ : PortBlind φ) {s t : State} {e : Event} {k : State → State} (h : portDone s e k = .next t)
    (hk : ∀ u, φ (k u) = φ u) : φ t = φ s := by
  rcases portDone_cases h with rfl | ⟨r, rest, -, rfl⟩
  · rfl
  · rw [hk]; exact hφ s _ _ _ _

theorem receiveFrame_keeps (hφ : PortBlind φ) {m : Message} {s t : State} (h : receiveFrame m s = .next t)
    (haccept : ∀ c m u, φ (State.accept c m u) = φ u) : φ t = φ s := by
  rcases receiveFrame_cases h with rfl | ⟨c, -, -, rfl⟩
  · rfl
  · rw [haccept]
    rcases s.dropReply_cases with e | ⟨r, rest, -, e⟩ <;> rw [e]
    exact hφ s _ _ _ _

end

/-! ### DIGEST_OK and LENGTH_OK -/

/-- The handshake flags. -/
def State.flags (s : State) : Bool × Bool := (s.digestOk, s.lengthOk)

theorem State.flags_portBlind : PortBlind State.flags := fun _ _ _ _ _ => rfl

theorem State.seekSlot_flags (s : State) : s.seekSlot.flags = s.flags := by rw [s.seekSlot_frame]; rfl

theorem State.recvNone_flags (s : State) : s.recvNone.flags = s.flags := by rw [s.recvNone_frame]; rfl

theorem State.sendReturn_flags (s : State) : s.sendReturn.flags = s.flags := by
  rcases s.sendReturn_cases with ⟨-, e⟩ | ⟨-, e⟩ <;> rw [e] <;> rfl

theorem State.closeReturn_flags (s : State) : s.closeReturn.flags = s.flags := by
  rcases s.closeReturn_cases with ⟨-, -, e⟩ | ⟨-, e⟩ <;> rw [e] <;> rfl

theorem State.digestGapDone_flags (s : State) : s.digestGapDone.flags = s.flags := by
  rcases s.digestGapDone_cases with ⟨-, e⟩ | ⟨-, e⟩ <;> rw [e] <;> rfl

theorem takeException_flags (x : ErrorCause) (s : State) : (takeException x s).flags = s.flags := by cases x <;> rfl

theorem returnFromRecovery_flags (ok : Bool) (s : State) : (returnFromRecovery ok s).flags = s.flags := by
  rcases returnFromRecovery_cases ok s with ⟨-, -, e⟩ | ⟨-, -, e⟩ | ⟨-, -, e⟩ | ⟨-, -, e⟩ | ⟨-, e⟩ | ⟨-, e⟩ <;>
    rw [e]
  · rfl
  · exact takeException_flags _ s
  · rfl
  · exact s.sendReturn_flags
  · exact s.recvNone_flags

theorem State.accept_flags (c : Handle) (m : Message) (s : State) : (s.accept c m).flags = s.flags := by
  unfold State.accept
  rcases State.consume_cases m
    { s with op := .noOp, pstep := .rxDrain, trace := .received c s.recvTimeout .frame :: s.trace } with
    ⟨_, _, _, _, -, -, e⟩ | ⟨_, _, _, _, -, -, e⟩ | e <;> rw [e] <;> rfl

theorem receiveFrame_flags {m : Message} {s t : State} (h : receiveFrame m s = .next t) : t.flags = s.flags :=
  receiveFrame_keeps State.flags_portBlind h State.accept_flags

/-- The operations of the link supervisor write no flag. -/
theorem exec_link_flags {i : Instr} {s t : State} (hi : i ∈ [.lsOpen, .lsSend, .lsRecv, .lsRecover, .lsClose])
    (he : exec i s = .next t) : t.flags = s.flags := by
  have hb := State.flags_portBlind
  simp only [List.mem_cons, List.not_mem_nil, or_false] at hi
  rcases hi with rfl | rfl | rfl | rfl | rfl
  · simp only [exec, execLsOpen] at he
    split at he
    · cases he; rfl
    · exact portOpen_keeps hb he (fun _ => rfl) (fun _ => rfl)
    · cases he
  · simp only [exec, execLsSend] at he
    repeat' split at he
    · cases he; rfl
    · exact portSend_keeps hb he State.sendReturn_flags (takeException_flags _)
    · cases he; rfl
    · exact portSend_keeps hb he State.sendReturn_flags State.sendReturn_flags
    · cases he; exact s.sendReturn_flags
    · cases he
  · simp only [exec, execLsRecv] at he
    repeat' split at he
    · cases he; rfl
    · exact portRecv_keeps hb he (fun _ u => u.accept_flags _ _) State.recvNone_flags (takeException_flags _)
    · cases he; rfl
    · cases he
  · simp only [exec, execLsRecover] at he
    split at he
    case h_10 => cases he
    case h_1 | h_2 | h_3 =>
      split at he
      · exact portDone_keeps hb he (fun _ => rfl)
      · cases he; rfl
    case h_4 | h_5 | h_6 => exact portDone_keeps hb he (fun _ => rfl)
    case h_7 | h_8 | h_9 => exact portOpen_keeps hb he (returnFromRecovery_flags _) (returnFromRecovery_flags _)
  · simp only [exec, execLsClose] at he
    repeat' split at he
    · cases he; rfl
    · exact portDone_keeps hb he State.closeReturn_flags
    · cases he; exact s.closeReturn_flags
    all_goals cases he

/-- What each operation does to the flags: START clears both, each evaluation of the handshake may set its own. -/
theorem exec_flags {i : Instr} {s t : State} (he : exec i s = .next t) :
    t.flags = s.flags ∨ i = .start ∧ t.flags = (false, false) ∨
      s.phase = .sendingDigest ∧ t.phase = .digestConfirmed ∧ t.flags = (true, s.lengthOk) ∨
      s.phase = .sendingLength ∧ t.phase = .lengthConfirmed ∧ t.flags = (s.digestOk, true) := by
  have hb := State.flags_portBlind
  cases i
  case data | infoLen | infoDig | progress => exact .inl (receiveFrame_flags he)
  case lsOpen | lsSend | lsRecv | lsRecover | lsClose => exact .inl (exec_link_flags (by simp) he)
  case blockCount | encInfoLen | encProgress | demux | decode | decData | decInfo | decProgress | curUpdate | configCheck =>
    cases he; exact .inl rfl
  case start =>
    simp only [exec, execStart] at he
    repeat' split at he
    all_goals cases he
    · exact .inr (.inl ⟨rfl, rfl⟩)
    · exact .inr (.inl ⟨rfl, rfl⟩)
    · exact .inl rfl
  case hsEvalDigest =>
    simp only [exec, execHsEvalDigest] at he
    repeat' split at he
    all_goals cases he
    · exact .inr (.inr (.inl ⟨by assumption, rfl, rfl⟩))
    all_goals exact .inl rfl
  case hsEvalLength =>
    simp only [exec, execHsEvalLength] at he
    repeat' split at he
    all_goals cases he
    · exact .inr (.inr (.inr ⟨by assumption, rfl, rfl⟩))
    · exact .inl rfl
  case hsDigestRound =>
    simp only [exec, execHsDigestRound] at he
    repeat' split at he
    case h_3 => exact .inl (portDone_keeps hb he State.digestGapDone_flags)
    all_goals cases he
    all_goals exact .inl rfl
  case hsLengthRound =>
    simp only [exec, execHsLengthRound] at he
    repeat' split at he
    case h_3 => exact .inl (portDone_keeps hb he (fun _ => rfl))
    all_goals cases he
    all_goals exact .inl rfl
  case bteWindow =>
    simp only [exec, execBteWindow] at he
    repeat' split at he
    case h_1 => cases he; exact .inl (State.seekSlot_flags _)
    all_goals cases he
    all_goals exact .inl rfl
  case abort | blkFetch | encData | encInfoDig | rxPoll | bteEnter | bteExit | prReport | prFlush | abortExit =>
    simp only [exec, execAbort, execBlkFetch, execEncData, execEncInfoDig, execRxPoll, execBteEnter, execBteExit, execPrReport,
      execPrFlush, execAbortExit] at he
    repeat' split at he
    all_goals cases he
    all_goals exact .inl rfl

/-- Settles O57, flag by flag, from what each operation does to both. -/
theorem flagsWrittenOnlyByTransitions : Obligations.FlagsWrittenOnlyByTransitions := by
  intro i s t he
  rcases exec_flags he with h | ⟨hi, h⟩ | ⟨hp, hq, h⟩ | ⟨hp, hq, h⟩ <;> simp only [State.flags, Prod.mk.injEq] at h <;>
    obtain ⟨hd, hn⟩ := h
  · exact ⟨fun hne => absurd hd hne, fun hne => absurd hn hne⟩
  · exact ⟨fun _ => .inr ⟨hd, hi⟩, fun _ => .inr ⟨hn, hi⟩⟩
  · exact ⟨fun _ => .inl ⟨hd, hp, hq⟩, fun hne => absurd hn hne⟩
  · exact ⟨fun hne => absurd hd hne, fun _ => .inl ⟨hn, hp, hq⟩⟩

end Sys2Proof.Machine
end

section
/-!
PROOFS. The model's choices outside the domains the spec gives (O17).
-/
namespace Sys2Proof.Machine

/-! ### Encoders, block fetch and frames -/

theorem exec_encData_refused (s : State) {i : BitVec 32} (d : Block) (h : 2 ^ 26 ≤ i.toNat) :
    exec (.encData i d) s = .refused .operandOutOfRange := by
  simp only [exec, execEncData, if_neg (Nat.not_lt.2 h)]

theorem exec_encInfoDig_refused (s : State) {k : Byte} (c : BitVec 32) (h : 4 ≤ k.toNat) :
    exec (.encInfoDig k c) s = .refused .operandOutOfRange := by
  simp only [exec, execEncInfoDig, if_neg (show ¬ k.toNat ≤ 3 by omega)]

/-- Past the last block there is none to fetch. -/
theorem State.fetchBlock_none {s : State} {i : Nat} (h : (s.imgLen.toNat + 6) / 7 ≤ i) : s.fetchBlock i = none := by
  unfold State.fetchBlock
  rw [if_neg (by omega)]

theorem exec_blkFetch_refused {s : State} {i : BitVec 32} (h : (s.imgLen.toNat + 6) / 7 ≤ i.toNat) :
    exec (.blkFetch i) s = .refused .operandOutOfRange := by
  simp only [exec, execBlkFetch, State.fetchBlock_none h]

/-- The index of a DATA frame: the identifier's field and the check byte, no bit lost. -/
theorem toNat_dataIndex (id : Ident) (check : Byte) :
    (dataIndex id check).toNat = (((id &&& indexMask) >>> 3) ||| check.setWidth 29).toNat := by
  have hid : ((id &&& indexMask) >>> 3).toNat < 2 ^ 26 := by
    rw [BitVec.toNat_ushiftRight, Nat.shiftRight_eq_div_pow]
    have := (id &&& indexMask).isLt
    omega
  have hc := check.isLt
  simp only [dataIndex, BitVec.toNat_or, BitVec.toNat_setWidth, Nat.mod_eq_of_lt hid]
  rw [Nat.mod_eq_of_lt (by omega), Nat.mod_eq_of_lt (by omega)]

/-- Byte b of the data field is payload byte 1 + b. -/
theorem blockByte_dataField (p : Payload) {b : Nat} (h : b ≤ 6) :
    blockByte (getField 56 futpLayout.dataField p) b = payloadByte p (1 + b) := by
  apply BitVec.eq_of_getLsbD_eq
  intro j hj
  simp only [blockByte, getField, payloadByte, futpLayout, BitVec.getLsbD_setWidth, BitVec.getLsbD_ushiftRight]
  have hb : 8 * b + j < 56 := by omega
  simp only [hj, hb, decide_true, Bool.true_and]
  congr 1
  omega

/-- A frame of no receive stays where it is. -/
theorem receiveFrame_idle {s : State} (h : s.receiving = false) (m : Message) : receiveFrame m s = .next s := by
  simp [receiveFrame, h]

theorem exec_frame_idle {s : State} (h : s.receiving = false) {i : Instr} (hi : i.format = .frame93) : exec i s = .next s := by
  cases i <;> simp [Instr.format] at hi <;> exact receiveFrame_idle h _

/-! ### The link supervisor's operations look at PHASE and PSTEP only to return -/

/-- The state with another PHASE and PSTEP. -/
def State.placed (p : Phase) (q : PStep) (s : State) : State := { s with phase := p, pstep := q }

/-- What an operation of the link supervisor leaves, but for where it returns to. -/
def State.linkView (s : State) : Op × Link × Option Handle × List Turn × List Event :=
  (s.op, s.link, s.chan, s.script, s.trace.map Event.forget)

/-- The continuation leaves the same at every PHASE and PSTEP. -/
def PlaceBlind (k : State → State) : Prop := ∀ (p : Phase) (q : PStep) (u : State), (k (u.placed p q)).linkView = (k u).linkView

theorem awaitReply_at {k : Reply → State → State} (hk : ∀ r, PlaceBlind (k r)) (p : Phase) (q : PStep) {s t : State}
    (h : awaitReply s k = .next t) : ∃ u, awaitReply (s.placed p q) k = .next u ∧ u.linkView = t.linkView := by
  rcases hs : s.script with _ | ⟨x, rest⟩
  · have hu : s.unanswered := by simp [State.unanswered, hs]
    rw [awaitReply_waits k hu] at h; cases h
    exact ⟨_, awaitReply_waits k (s := s.placed p q) hu, rfl⟩
  · by_cases hx : ∃ r, x = .reply r
    · obtain ⟨r, rfl⟩ := hx
      rw [awaitReply_reply k hs] at h; cases h
      exact ⟨_, awaitReply_reply (s := s.placed p q) k hs, hk r p q { s with script := rest }⟩
    · have hu : s.unanswered := fun r l hl => hx ⟨r, by rw [hs] at hl; exact (List.cons.inj hl).1⟩
      rw [awaitReply_waits k hu] at h; cases h
      exact ⟨_, awaitReply_waits k (s := s.placed p q) hu, rfl⟩

theorem portOpen_at {ok fail : State → State} (hok : PlaceBlind ok) (hfail : PlaceBlind fail) (p : Phase) (q : PStep) {s t : State}
    (h : portOpen s ok fail = .next t) : ∃ u, portOpen (s.placed p q) ok fail = .next u ∧ u.linkView = t.linkView := by
  refine awaitReply_at (fun r p q u => ?_) p q h
  cases hr : r.opened with
  | none => exact hfail p q (u.log (.openFailed u.cfg.bus u.cfg.bitrate))
  | some c =>
    exact hok p q { u with chan := some c, link := .up, trace := .opened u.cfg.bus u.cfg.bitrate c :: u.trace }

theorem portSend_at {ok fail : State → State} (hok : PlaceBlind ok) (hfail : PlaceBlind fail) (p : Phase) (q : PStep) {s t : State}
    {c : Handle} (h : portSend s c ok fail = .next t) :
    ∃ u, portSend (s.placed p q) c ok fail = .next u ∧ u.linkView = t.linkView := by
  refine awaitReply_at (fun r p q u => ?_) p q h
  cases hr : r.sent with
  | true => exact hok p q (u.log (.sent c u.txf true))
  | false => exact hfail p q (u.log (.sent c u.txf false))

theorem portDone_at {k : State → State} (hk : PlaceBlind k) (p : Phase) (q : PStep) {s t : State} {e : Event}
    (h : portDone s e k = .next t) : ∃ u, portDone (s.placed p q) e k = .next u ∧ u.linkView = t.linkView :=
  awaitReply_at (fun _ p q u => hk p q (u.log e)) p q h

theorem State.sendReturn_linkView (s : State) :
    s.sendReturn.linkView = (.noOp, s.link, s.chan, s.script, s.trace.map Event.forget) := by
  rcases s.sendReturn_cases with ⟨-, e⟩ | ⟨-, e⟩ <;> rw [e] <;> rfl

theorem State.recvNone_linkView (s : State) :
    s.recvNone.linkView = (.noOp, s.link, s.chan, s.script, s.trace.map Event.forget) := by rw [s.recvNone_frame]; rfl

theorem State.closeReturn_linkView (s : State) :
    s.closeReturn.linkView = (.noOp, .closed, none, s.script, s.trace.map Event.forget) := by
  rcases s.closeReturn_cases with ⟨-, -, e⟩ | ⟨-, e⟩ <;> rw [e] <;> rfl

theorem State.accept_linkView (c : Handle) (m : Message) (s : State) : (s.accept c m).linkView =
    (.noOp, s.link, s.chan, s.script, .received c noDuration .frame :: s.trace.map Event.forget) := by
  unfold State.accept
  rcases State.consume_cases m
    { s with op := .noOp, pstep := .rxDrain, trace := .received c s.recvTimeout .frame :: s.trace } with
    ⟨_, _, _, _, -, -, e⟩ | ⟨_, _, _, _, -, -, e⟩ | e <;> rw [e] <;> rfl

theorem sendReturn_placeBlind : PlaceBlind State.sendReturn := fun _ _ u => by simp only [State.sendReturn_linkView]; rfl

theorem recvNone_placeBlind : PlaceBlind State.recvNone := fun _ _ u => by simp only [State.recvNone_linkView]; rfl

theorem closeReturn_placeBlind : PlaceBlind State.closeReturn := fun _ _ u => by simp only [State.closeReturn_linkView]; rfl

theorem returnFromRecovery_placeBlind (ok : Bool) : PlaceBlind (returnFromRecovery ok) := by
  intro p q u
  unfold returnFromRecovery State.placed
  cases hu : u.op <;> cases ok
  case sendOp.false => exact sendReturn_placeBlind p q u
  case recvOp.false | recvOp.true => exact recvNone_placeBlind p q u
  case openOp.false | openOp.true => rfl
  all_goals simp only [State.linkView, hu, if_true]

/-- LS.RECV's receive: its timeout, a duration, is all that PHASE and PSTEP choose at the port. -/
theorem portRecv_at (p : Phase) (q : PStep) {s t : State} {c : Handle}
    (h : portRecv s c (fun f s => s.accept c (decodeMessage s.cfg.baseId f)) State.recvNone
      (takeException .linkRecvFailed) = .next t) :
    ∃ u, portRecv (s.placed p q) c (fun f s => s.accept c (decodeMessage s.cfg.baseId f)) State.recvNone
      (takeException .linkRecvFailed) = .next u ∧ u.linkView = t.linkView := by
  refine awaitReply_at (fun r p q u => ?_) p q h
  cases hr : r.received with
  | frame f => simp only [State.accept_linkView]; rfl
  | nothing => simp only [State.recvNone_linkView]; rfl
  | err => rfl

/-- At every PHASE and PSTEP an operation of the link supervisor that is in progress makes the same request and takes the same
answer. -/
theorem exec_link_at {i : Instr} (hi : i ∈ [.lsOpen, .lsSend, .lsRecv, .lsRecover, .lsClose]) (p : Phase) (q : PStep) {s t : State}
    (ho : s.op ≠ .noOp) (he : exec i s = .next t) : ∃ u, exec i (s.placed p q) = .next u ∧ u.linkView = t.linkView := by
  have hop : (s.placed p q).op = s.op := rfl
  have hstep : (s.placed p q).opstep = s.opstep := rfl
  have hlive : (s.placed p q).live = s.live := rfl
  simp only [List.mem_cons, List.not_mem_nil, or_false] at hi
  rcases hi with rfl | rfl | rfl | rfl | rfl
  · simp only [exec, execLsOpen, hop, hstep] at he ⊢
    split at he
    · exact absurd (by assumption) ho
    · exact portOpen_at (fun _ _ _ => rfl) (fun _ _ _ => rfl) p q he
    · cases he
  · simp only [exec, execLsSend, hop, hstep, hlive] at he ⊢
    repeat' split at he
    · exact absurd (by assumption) ho
    · exact portSend_at sendReturn_placeBlind (fun _ _ _ => rfl) p q he
    · cases he; exact ⟨_, rfl, rfl⟩
    · exact portSend_at sendReturn_placeBlind sendReturn_placeBlind p q he
    · cases he; exact ⟨_, rfl, sendReturn_placeBlind p q s⟩
    · cases he
  · simp only [exec, execLsRecv, hop, hstep, hlive] at he ⊢
    repeat' split at he
    · exact absurd (by assumption) ho
    · exact portRecv_at p q he
    · cases he; exact ⟨_, rfl, rfl⟩
    · cases he
  · simp only [exec, execLsRecover, hop, hstep, hlive] at he ⊢
    split at he
    case h_10 => cases he
    case h_1 | h_2 | h_3 =>
      split at he
      · exact portDone_at (fun _ _ _ => rfl) p q he
      · cases he; exact ⟨_, rfl, rfl⟩
    case h_4 | h_5 | h_6 => exact portDone_at (fun _ _ _ => rfl) p q he
    case h_7 | h_8 | h_9 => exact portOpen_at (returnFromRecovery_placeBlind _) (returnFromRecovery_placeBlind _) p q he
  · simp only [exec, execLsClose, hop, hlive] at he ⊢
    repeat' split at he
    · exact absurd (by assumption) ho
    · exact portDone_at closeReturn_placeBlind p q he
    · cases he; exact ⟨_, rfl, closeReturn_placeBlind p q s⟩
    all_goals cases he

/-! ### START, host writes past the image and the calls -/

/-- START leaves TXF and what FRESH holds besides `valid`. -/
theorem exec_start_keeps {s t : State} (h : exec .start s = .next t) :
    t.txf = s.txf ∧ t.fresh = { s.fresh with valid := t.fresh.valid } := by
  simp only [exec, execStart] at h
  repeat' split at h
  all_goals cases h
  all_goals exact ⟨rfl, rfl⟩

/-- An image byte is written at rest wherever its address lies. -/
theorem step_imageWrite {s : State} {a : BitVec 32} {b : Byte} {rest : List Turn} (hr : s.phase.atRest = true)
    (hs : s.script = .host (.write (.image a b)) :: rest) :
    step s = .next (State.applyWrite (.image a b) { s with script := rest }) := by
  rw [step_hostWrite hs, State.hostWrite_atRest _ (s := { s with script := rest }) hr]

/-- Outside an operation each operation of the link supervisor is called, whatever PHASE is. -/
theorem exec_link_call {s : State} (h : s.op = .noOp) :
    exec .lsOpen s = .next (s.call .openOp) ∧ exec .lsSend s = .next (s.call .sendOp) ∧ exec .lsRecv s = .next (s.call .recvOp) ∧
      exec .lsClose s = .next (s.call .closeOp) := by
  simp only [exec, execLsOpen, execLsSend, execLsRecv, execLsClose, h, and_self]

theorem exec_rxPoll_call {s : State} (h : s.op = .noOp) (hq : s.pstep = .rxTimed ∨ s.pstep = .rxDrain) :
    exec .rxPoll s = .next (s.call .recvOp) := by
  rcases hq with hq | hq <;> simp only [exec, execRxPoll, h, hq]

/-- At an engine boundary the three operations that share it take effect without a test of completion. -/
theorem exec_engine_boundary {s : State} (hp : s.phase = .transfer) (ho : s.op = .noOp) (hq : s.pstep = .boundary) :
    exec .bteExit s = .next { s with pstep := .exit } ∧
      exec .bteWindow s = .next (State.seekSlot { s with wbase := s.cursor, wsent := false, wSlot := 0 }) ∧
      (s.abortReq = true → exec .abortExit s = .next (s.call .closeOp)) := by
  refine ⟨?_, ?_, fun ha => ?_⟩
  · simp only [exec, execBteExit, hp, ho, hq]
  · simp only [exec, execBteWindow, hp, ho, hq]
  · simp only [exec, execAbortExit, hp, ho, hq, ha]

/-- Settles O17, clause by clause from what the model's operations do there. -/
theorem outsideTheirDomains : Obligations.OutsideTheirDomains := by
  intro s
  refine ⟨fun i d => exec_encData_refused s d, fun k c => exec_encInfoDig_refused s c, fun i => exec_blkFetch_refused,
    fun id p => ⟨_, _, rfl, toNat_dataIndex id _, fun b => blockByte_dataField p⟩, fun hr i => exec_frame_idle hr, fun ho => ?_,
    fun i p q t hi ho he => ?_, exec_engine_boundary, fun cur wr idx _ => ⟨_, rfl, toInt_cursorUpdate cur wr idx⟩,
    fun a b rest hr hs _ => ?_, fun t => exec_start_keeps⟩
  · obtain ⟨hopen, hsend, hrecv, hclose⟩ := exec_link_call ho
    exact ⟨hopen, hsend, hrecv, hclose, exec_rxPoll_call ho⟩
  · obtain ⟨u, hu, hv⟩ := exec_link_at hi p q ho he
    simp only [State.linkView, Prod.mk.injEq] at hv
    exact ⟨u, hu, hv⟩
  · refine ⟨_, step_imageWrite hr hs, rfl, ?_, fun x hx => ?_⟩
    · exact State.imgByte_applyWrite_same { s with script := rest } a b
    · exact State.imgByte_applyWrite_other { s with script := rest } b hx

end Sys2Proof.Machine
end

section
/-!
PROOFS. What no operation writes: the image, the digest, the configuration and IMG_LEN (O53).
-/
namespace Sys2Proof.Machine

/-- What R61 keeps from the block's writes, with the number of resets, which the image bytes nobody has written depend on. -/
def State.inputs (s : State) : Memory × DigestRegs × Cfg × BitVec 32 × Nat := (s.img, s.digest, s.cfg, s.imgLen, s.epoch)

theorem State.inputs_portBlind : PortBlind State.inputs := fun _ _ _ _ _ => rfl

theorem State.imgByte_of_inputs {s t : State} (h : t.inputs = s.inputs) (a : Nat) : t.imgByte a = s.imgByte a := by
  simp only [State.inputs, Prod.mk.injEq] at h
  obtain ⟨himg, -, -, -, hepoch⟩ := h
  rw [State.imgByte, State.imgByte, himg, hepoch]

/-! ### What the operations share keeps the inputs -/

theorem State.seekSlot_inputs (s : State) : s.seekSlot.inputs = s.inputs := by rw [s.seekSlot_frame]; rfl

theorem State.recvNone_inputs (s : State) : s.recvNone.inputs = s.inputs := by rw [s.recvNone_frame]; rfl

theorem State.sendReturn_inputs (s : State) : s.sendReturn.inputs = s.inputs := by
  rcases s.sendReturn_cases with ⟨-, e⟩ | ⟨-, e⟩ <;> rw [e] <;> rfl

theorem State.closeReturn_inputs (s : State) : s.closeReturn.inputs = s.inputs := by
  rcases s.closeReturn_cases with ⟨-, -, e⟩ | ⟨-, e⟩ <;> rw [e] <;> rfl

theorem State.digestGapDone_inputs (s : State) : s.digestGapDone.inputs = s.inputs := by
  rcases s.digestGapDone_cases with ⟨-, e⟩ | ⟨-, e⟩ <;> rw [e] <;> rfl

theorem takeException_inputs (x : ErrorCause) (s : State) : (takeException x s).inputs = s.inputs := by cases x <;> rfl

theorem returnFromRecovery_inputs (ok : Bool) (s : State) : (returnFromRecovery ok s).inputs = s.inputs := by
  unfold returnFromRecovery
  cases s.op <;> cases ok
  case sendOp.false => exact s.sendReturn_inputs
  case recvOp.false | recvOp.true => exact s.recvNone_inputs
  all_goals rfl

theorem State.consume_inputs (m : Message) (s : State) : (s.consume m).inputs = s.inputs := by
  rcases s.consume_cases m with ⟨_, _, _, _, -, -, e⟩ | ⟨_, _, _, _, -, -, e⟩ | e <;> rw [e] <;> rfl

theorem State.accept_inputs (c : Handle) (m : Message) (s : State) : (s.accept c m).inputs = s.inputs :=
  State.consume_inputs m _

/-! ### Outcomes that keep the inputs -/

/-- The next state, if the outcome answers one, has the inputs of `s`. -/
def KeepsInputs (s : State) (o : Host.Outcome State Fault Refusal) : Prop := ∀ t, o = .next t → t.inputs = s.inputs

theorem keepsInputs_next {s t : State} : KeepsInputs s (.next t) ↔ t.inputs = s.inputs :=
  ⟨fun h => h t rfl, fun h _ e => by cases e; exact h⟩

theorem keepsInputs_refused (s : State) (r : Refusal) : KeepsInputs s (.refused r) := fun _ e => by cases e

theorem keepsInputs_portOpen {s : State} {ok fail : State → State} (hok : ∀ u, (ok u).inputs = u.inputs)
    (hfail : ∀ u, (fail u).inputs = u.inputs) : KeepsInputs s (portOpen s ok fail) :=
  fun _ h => portOpen_keeps State.inputs_portBlind h hok hfail

theorem keepsInputs_portSend {s : State} {c : Handle} {ok fail : State → State} (hok : ∀ u, (ok u).inputs = u.inputs)
    (hfail : ∀ u, (fail u).inputs = u.inputs) : KeepsInputs s (portSend s c ok fail) :=
  fun _ h => portSend_keeps State.inputs_portBlind h hok hfail

theorem keepsInputs_portDone {s : State} {e : Event} {k : State → State} (hk : ∀ u, (k u).inputs = u.inputs) :
    KeepsInputs s (portDone s e k) :=
  fun _ h => portDone_keeps State.inputs_portBlind h hk

theorem keepsInputs_receiveFrame (m : Message) (s : State) : KeepsInputs s (receiveFrame m s) :=
  fun _ h => receiveFrame_keeps State.inputs_portBlind h State.accept_inputs

/-! ### The operations that make port requests -/

theorem execLsOpen_keepsInputs (s : State) : KeepsInputs s (execLsOpen s) := by
  unfold execLsOpen
  split
  · exact keepsInputs_next.2 rfl
  · exact keepsInputs_portOpen (fun _ => rfl) (fun _ => rfl)
  · exact keepsInputs_refused s _

theorem execLsSend_keepsInputs (s : State) : KeepsInputs s (execLsSend s) := by
  have hfail := takeException_inputs .linkSendFailed
  unfold execLsSend
  split
  · exact keepsInputs_next.2 rfl
  · cases s.live with
    | some c => exact keepsInputs_portSend State.sendReturn_inputs hfail
    | none => exact keepsInputs_next.2 (hfail s)
  · cases s.live with
    | some c => exact keepsInputs_portSend State.sendReturn_inputs State.sendReturn_inputs
    | none => exact keepsInputs_next.2 s.sendReturn_inputs
  · exact keepsInputs_refused s _

theorem execLsRecv_keepsInputs (s : State) : KeepsInputs s (execLsRecv s) := by
  have hfail := takeException_inputs .linkRecvFailed
  unfold execLsRecv
  split
  · exact keepsInputs_next.2 rfl
  · cases s.live with
    | some c =>
      exact fun _ h => portRecv_keeps State.inputs_portBlind h (fun _ u => u.accept_inputs _ _) State.recvNone_inputs hfail
    | none => exact keepsInputs_next.2 (hfail s)
  · exact keepsInputs_refused s _

theorem execLsRecover_keepsInputs (s : State) : KeepsInputs s (execLsRecover s) := by
  unfold execLsRecover
  split
  case h_1 | h_2 | h_3 =>
    cases s.live with
    | some c => exact keepsInputs_portDone fun _ => rfl
    | none => exact keepsInputs_next.2 rfl
  case h_4 | h_5 | h_6 => exact keepsInputs_portDone fun _ => rfl
  case h_7 | h_8 | h_9 => exact keepsInputs_portOpen (returnFromRecovery_inputs _) (returnFromRecovery_inputs _)
  case h_10 => exact keepsInputs_refused s _

theorem execLsClose_keepsInputs (s : State) : KeepsInputs s (execLsClose s) := by
  unfold execLsClose
  cases s.op with
  | noOp => exact keepsInputs_next.2 rfl
  | closeOp =>
    cases s.live with
    | some c => exact keepsInputs_portDone State.closeReturn_inputs
    | none => exact keepsInputs_next.2 s.closeReturn_inputs
  | openOp | sendOp | recvOp => exact keepsInputs_refused s _

/-- A round of the handshake makes one request, its gap. -/
theorem execHsDigestRound_keepsInputs (s : State) : KeepsInputs s (execHsDigestRound s) := by
  unfold execHsDigestRound
  repeat' split
  case h_3 => exact keepsInputs_portDone State.digestGapDone_inputs
  all_goals simp only [keepsInputs_refused, keepsInputs_next]
  all_goals rfl

theorem execHsLengthRound_keepsInputs (s : State) : KeepsInputs s (execHsLengthRound s) := by
  unfold execHsLengthRound
  repeat' split
  case h_3 => exact keepsInputs_portDone fun _ => rfl
  all_goals simp only [keepsInputs_refused, keepsInputs_next]
  all_goals rfl

/-! ### Every operation -/

theorem execStart_keepsInputs (s : State) : KeepsInputs s (execStart s) := by
  unfold execStart
  split
  · cases s.configCheck <;> exact keepsInputs_next.2 rfl
  · exact keepsInputs_next.2 rfl

theorem execBteWindow_keepsInputs (s : State) : KeepsInputs s (execBteWindow s) := by
  unfold execBteWindow
  split
  · exact keepsInputs_next.2 (State.seekSlot_inputs _)
  · cases s.candidateFrame with
    | some f => exact keepsInputs_next.2 rfl
    | none => exact keepsInputs_refused s _
  · exact keepsInputs_next.2 rfl
  · exact keepsInputs_next.2 rfl
  · exact keepsInputs_refused s _

/-- R61: the frames and the link supervisor reach the state through `accept` and the ports' answers; a pure function returns its
value; every other operation writes registers of the run only. -/
theorem exec_keepsInputs (i : Instr) (s : State) : KeepsInputs s (exec i s) := by
  cases i
  case data | infoLen | infoDig | progress => exact keepsInputs_receiveFrame _ s
  case blockCount | encInfoLen | encProgress | demux | decode | decData | decInfo | decProgress | curUpdate | configCheck =>
    exact keepsInputs_next.2 rfl
  case start => exact execStart_keepsInputs s
  case lsOpen => exact execLsOpen_keepsInputs s
  case lsSend => exact execLsSend_keepsInputs s
  case lsRecv => exact execLsRecv_keepsInputs s
  case lsRecover => exact execLsRecover_keepsInputs s
  case lsClose => exact execLsClose_keepsInputs s
  case hsDigestRound => exact execHsDigestRound_keepsInputs s
  case hsLengthRound => exact execHsLengthRound_keepsInputs s
  case bteWindow => exact execBteWindow_keepsInputs s
  case blkFetch | encData | encInfoDig | abort | rxPoll | hsEvalDigest | hsEvalLength | bteEnter | bteExit | prReport | prFlush |
      abortExit =>
    simp only [exec, execBlkFetch, execEncData, execEncInfoDig, execAbort, execRxPoll, execHsEvalDigest, execHsEvalLength,
      execBteEnter, execBteExit, execPrReport, execPrFlush, execAbortExit, returnValue]
    repeat' split
    all_goals simp only [keepsInputs_refused, keepsInputs_next]
    all_goals rfl

/-- Settles O53: every operation keeps the inputs, and an image byte is read from them. -/
theorem noOperationWritesInputs : Obligations.NoOperationWritesInputs := by
  intro i s t he
  have h := exec_keepsInputs i s t he
  have hbyte := State.imgByte_of_inputs h
  simp only [State.inputs, Prod.mk.injEq] at h
  obtain ⟨himg, hdigest, hcfg, hlen, -⟩ := h
  exact ⟨hbyte, himg, hdigest, hcfg, hlen⟩

end Sys2Proof.Machine
end

section
/-!
PROOFS. The frame codec and the codes of the operations (O5, O7, O8).
-/
namespace Sys2Proof.Machine

/-! ### Fields of the payload word -/

theorem getLsbD_putField {w : Nat} (off : Nat) (v : BitVec w) (k : Nat) :
    (putField off v).getLsbD k = (decide (k < 64) && decide (off ≤ k) && v.getLsbD (k - off)) := by
  simp only [putField, BitVec.getLsbD_shiftLeft, BitVec.getLsbD_setWidth, ← Nat.not_lt, decide_not]
  by_cases hk : k < 64
  · simp [hk, show k - off < 64 by omega]
  · simp [hk]

theorem getLsbD_getField (w off : Nat) (p : Payload) (k : Nat) :
    (getField w off p).getLsbD k = (decide (k < w) && p.getLsbD (off + k)) := by
  simp [getField]

@[simp] theorem getField_or (w off : Nat) (p q : Payload) :
    getField w off (p ||| q) = getField w off p ||| getField w off q := by
  apply BitVec.eq_of_getLsbD_eq
  intro k hk
  rw [BitVec.getLsbD_or, getLsbD_getField, getLsbD_getField, getLsbD_getField, BitVec.getLsbD_or, Bool.and_or_distrib_left]

@[simp] theorem getFlag_or (off : Nat) (p q : Payload) : getFlag off (p ||| q) = (getFlag off p || getFlag off q) :=
  BitVec.getLsbD_or

/-- A field reads back what was put there. -/
@[simp] theorem getField_putField_same {w off : Nat} (v : BitVec w) (h : off + w ≤ 64) : getField w off (putField off v) = v := by
  apply BitVec.eq_of_getLsbD_eq
  intro k hk
  rw [getLsbD_getField, getLsbD_putField, Nat.add_sub_cancel_left]
  simp [hk, show off + k < 64 by omega]

/-- A field is zero where another field was put beside it. -/
@[simp] theorem getField_putField_disjoint {w w' off off' : Nat} (v : BitVec w') (h : off + w ≤ off' ∨ off' + w' ≤ off) :
    getField w off (putField off' v) = 0#w := by
  apply BitVec.eq_of_getLsbD_eq
  intro k hk
  rw [getLsbD_getField, getLsbD_putField, BitVec.getLsbD_zero]
  rcases h with h | h
  · simp [show ¬ off' ≤ off + k by omega]
  · simp [BitVec.getLsbD_of_ge v (off + k - off') (by omega)]

@[simp] theorem getFlag_putField_same {off : Nat} (b : Bool) (h : off < 64) : getFlag off (putField off (BitVec.ofBool b)) = b := by
  rw [getFlag, getLsbD_putField, Nat.sub_self]
  simp [h]

@[simp] theorem getFlag_putField_disjoint {w k off : Nat} (v : BitVec w) (h : k < off ∨ off + w ≤ k) :
    getFlag k (putField off v) = false := by
  rw [getFlag, getLsbD_putField]
  rcases h with h | h
  · simp [show ¬ off ≤ k by omega]
  · simp [BitVec.getLsbD_of_ge v (k - off) (by omega)]

/-! ### Identifiers (R92, R96, R128) -/

theorem getLsbD_indexMask {k : Nat} (hk : k < 29) : indexMask.getLsbD k = decide (11 ≤ k) := by
  revert k; decide

theorem toNat_and_baseMask (id : Ident) : (id &&& baseMask).toNat = id.toNat % 2 ^ 11 :=
  Nat.and_two_pow_sub_one_eq_mod id.toNat 11

/-- A legal base lies in identifier bits 10..0. -/
theorem legalBase.getLsbD {base : Ident} (h : legalBase base) {k : Nat} (hk : 11 ≤ k) : base.getLsbD k = false := by
  by_cases hlt : k < 29
  · have hbit : (base &&& indexMask).getLsbD k = false := by rw [show base &&& indexMask = 0#29 from h]; simp
    simpa [getLsbD_indexMask hlt, hk] using hbit
  · exact BitVec.getLsbD_of_ge base k (by omega)

/-- The identifier of a DATA frame, bit by bit: the base below, index bits 25..8 above. -/
theorem getLsbD_dataId {base : Ident} (h : legalBase base) (i : Index) {k : Nat} (hk : k < 29) :
    (dataId base i).getLsbD k = if k < 11 then base.getLsbD k else i.getLsbD (k - 3) := by
  simp only [dataId, BitVec.getLsbD_or, BitVec.getLsbD_and, BitVec.getLsbD_shiftLeft, BitVec.getLsbD_setWidth,
    getLsbD_indexMask hk]
  by_cases hb : k < 11
  · simp [hb, show ¬ 11 ≤ k by omega]
  · rw [h.getLsbD (show 11 ≤ k by omega)]
    simp [hb, hk, show 11 ≤ k by omega, show ¬ k < 3 by omega, show k - 3 < 29 by omega]

/-- R96: the identifier and the check byte give the index back. -/
theorem dataIndex_dataId {base : Ident} (h : legalBase base) (i : Index) : dataIndex (dataId base i) (i.setWidth 8) = i := by
  apply BitVec.eq_of_getLsbD_eq
  intro k hk
  simp only [dataIndex, BitVec.getLsbD_or, BitVec.getLsbD_setWidth, BitVec.getLsbD_ushiftRight, BitVec.getLsbD_and,
    getLsbD_dataId h i (show 3 + k < 29 by omega), getLsbD_indexMask (show 3 + k < 29 by omega)]
  by_cases hb : k < 8
  · simp [hk, hb, show ¬ 11 ≤ 3 + k by omega]
  · simp [hk, hb, show ¬ 3 + k < 11 by omega, show 11 ≤ 3 + k by omega]

theorem dataId_and_baseMask {base : Ident} (h : legalBase base) (i : Index) : dataId base i &&& baseMask = base := by
  apply BitVec.eq_of_getLsbD_eq
  intro k hk
  have hmask : baseMask.getLsbD k = decide (k < 11) := by revert k; decide
  rw [BitVec.getLsbD_and, getLsbD_dataId h i hk, hmask]
  by_cases hb : k < 11
  · simp [hb]
  · simp [hb, h.getLsbD (show 11 ≤ k by omega)]

@[simp] theorem demuxId_progressId (base : Ident) : demuxId base (progressId base) = .progress := if_pos rfl

@[simp] theorem demuxId_infoId (base : Ident) : demuxId base (infoId base) = .info := by
  have hne : infoId base ≠ progressId base := by unfold infoId progressId; bv_omega
  rw [demuxId, if_neg hne, if_pos rfl]

/-- An identifier whose bits 10..0 are the base is neither of the base's two neighbours, so it is a DATA frame's. -/
theorem demuxId_data {base id : Ident} (h : id &&& baseMask = base) : demuxId base id = .data := by
  have hbase : id.toNat % 2 ^ 11 = base.toNat := by rw [← toNat_and_baseMask, h]
  have hprogress : id ≠ progressId base := by rintro rfl; unfold progressId at hbase; bv_omega
  have hinfo : id ≠ infoId base := by rintro rfl; unfold infoId at hbase; bv_omega
  rw [demuxId, if_neg hprogress, if_neg hinfo, if_pos h]

/-! ### The decoders on encoded frames (R134) -/

theorem getField_check_encodeData (base : Ident) (i : Index) (d : Block) :
    getField 8 futpLayout.dataCheck (encodeData base i d).payload = i.setWidth 8 := by
  simp (disch := decide) [encodeData]

theorem getField_data_encodeData (base : Ident) (i : Index) (d : Block) :
    getField 56 futpLayout.dataField (encodeData base i d).payload = d := by
  simp (disch := decide) [encodeData]

theorem decodeDataFields_encodeData {base : Ident} (h : legalBase base) (i : Index) (d : Block) :
    decodeDataFields (dataId base i) (encodeData base i d).payload = .data i d := by
  rw [decodeDataFields, getField_check_encodeData, getField_data_encodeData, dataIndex_dataId h]

theorem decodeInfoFields_encodeInfoLen (base : Ident) (n : BitVec 32) :
    decodeInfoFields (encodeInfoLen base n).payload = .infoLen n := by
  simp (disch := decide) [decodeInfoFields, encodeInfoLen]

theorem decodeInfoFields_encodeInfoDig (base : Ident) {k : Byte} (c : BitVec 32) (hk : k.toNat ≤ 3) :
    decodeInfoFields (encodeInfoDig base k c).payload = .infoDig k c := by
  have htype : typeDigest ≠ typeLength := by decide
  simp (disch := decide) [decodeInfoFields, encodeInfoDig, htype, hk]

theorem decodeProgressFields_encodeProgress (base : Ident) (rd rl wr : Bool) (idx : BitVec 32) :
    decodeProgressFields (encodeProgress base rd rl wr idx).payload = .progress rd rl wr idx := by
  simp (disch := decide) [decodeProgressFields, encodeProgress]

theorem decodeMessage_encodeData {base : Ident} (h : legalBase base) (i : Index) (d : Block) :
    decodeMessage base (encodeData base i d).received = .data i d := by
  have hkind : demuxId base (encodeData base i d).received.id = .data := demuxId_data (dataId_and_baseMask h i)
  rw [decodeMessage, hkind]
  exact decodeDataFields_encodeData h i d

theorem decodeMessage_encodeInfoLen (base : Ident) (n : BitVec 32) :
    decodeMessage base (encodeInfoLen base n).received = .infoLen n := by
  have hkind : demuxId base (encodeInfoLen base n).received.id = .info := demuxId_infoId base
  rw [decodeMessage, hkind]
  exact decodeInfoFields_encodeInfoLen base n

theorem decodeMessage_encodeInfoDig (base : Ident) {k : Byte} (c : BitVec 32) (hk : k.toNat ≤ 3) :
    decodeMessage base (encodeInfoDig base k c).received = .infoDig k c := by
  have hkind : demuxId base (encodeInfoDig base k c).received.id = .info := demuxId_infoId base
  rw [decodeMessage, hkind]
  exact decodeInfoFields_encodeInfoDig base c hk

theorem decodeMessage_encodeProgress (base : Ident) (rd rl wr : Bool) (idx : BitVec 32) :
    decodeMessage base (encodeProgress base rd rl wr idx).received = .progress rd rl wr idx := by
  have hkind : demuxId base (encodeProgress base rd rl wr idx).received.id = .progress := demuxId_progressId base
  rw [decodeMessage, hkind]
  exact decodeProgressFields_encodeProgress base rd rl wr idx

/-! ### Decode of encode -/

theorem decodeFrame_of_message {base : Ident} {f : RxFrame} {m : Message} (h : decodeMessage base f = m) :
    decodeFrame base f = Instr.ofMessage m := by
  rw [decodeFrame, h]

theorem decode_encode_frame {base : Ident} {i : Instr} (hb : legalBase base) (hw : i.wellFormed = true) (hi : i.format = .frame93) :
    decode base (encode base i) = .ok i := by
  cases i
  case data i d => exact decodeFrame_of_message (decodeMessage_encodeData hb i d)
  case infoLen n => exact decodeFrame_of_message (decodeMessage_encodeInfoLen base n)
  case infoDig k c => exact decodeFrame_of_message (decodeMessage_encodeInfoDig base c (of_decide_eq_true hw))
  case progress rd rl wr idx => exact decodeFrame_of_message (decodeMessage_encodeProgress base rd rl wr idx)
  all_goals cases hi

theorem decode_encode_command (base : Ident) {i : Instr} (hi : i.format = .hostCommand) : decode base (encode base i) = .ok i := by
  cases i
  case start | abort => rfl
  all_goals cases hi

/-- The first control state that selects each internal operation does select it. -/
theorem decode_encode_control (base : Ident) {i : Instr} (hi : i.format = .control) : decode base (encode base i) = .ok i := by
  cases i
  case lsOpen | lsSend | lsRecv | lsRecover | lsClose | rxPoll | hsDigestRound | hsEvalDigest | hsLengthRound | hsEvalLength |
      bteEnter | bteWindow | bteExit | prReport | prFlush | abortExit => rfl
  all_goals cases hi

theorem format_encode (base : Ident) (i : Instr) : (encode base i).format = i.format := by
  cases i <;> rfl

/-- Settles O5, format by format. -/
theorem operationCodesDecodeBack : Obligations.OperationCodesDecodeBack := by
  intro base i hb hw hi
  refine ⟨?_, format_encode base i⟩
  cases hf : i.format with
  | frame93 => exact decode_encode_frame hb hw hf
  | hostCommand => exact decode_encode_command base hf
  | control => exact decode_encode_control base hf
  | function => exact absurd hf hi

/-- Settles O8: the parts of the index bit by bit, and the decoder's formula. -/
theorem dataIndexPacking : Obligations.DataIndexPacking := by
  intro base i d hb f
  have hid {k : Nat} (hk : k < 29) : f.id.getLsbD k = if k < 11 then base.getLsbD k else i.getLsbD (k - 3) :=
    getLsbD_dataId hb i hk
  have hcheck : payloadByte f.payload 0 = i.setWidth 8 := getField_check_encodeData base i d
  refine ⟨?_, ?_, ?_, ?_⟩
  · apply BitVec.eq_of_getLsbD_eq
    intro k hk
    rw [BitVec.getLsbD_extractLsb', BitVec.getLsbD_extractLsb', hid (by omega), if_neg (by omega),
      show 11 + k - 3 = 8 + k by omega]
  · apply BitVec.eq_of_getLsbD_eq
    intro k hk
    rw [BitVec.getLsbD_extractLsb', BitVec.getLsbD_extractLsb', hid (by omega), if_pos (by omega)]
  · rw [hcheck, BitVec.setWidth_eq_extractLsb' (by decide)]
  · rw [hcheck]
    exact dataIndex_dataId hb i

/-- Settles O7: each word is evaluated. -/
theorem specWordsDecode : Obligations.SpecWordsDecode := by
  unfold Obligations.SpecWordsDecode
  decide

end Sys2Proof.Machine
end

section
/-!
PROOFS. What a code decodes to is well-formed, and a step runs the operation it fetches (O4).
-/
namespace Sys2Proof.Machine

/-! ### What decodes is well-formed -/

/-- DEC.INFO lets no chunk index above 3 through (R132). -/
theorem chunkIndex_le_of_decodeInfoFields {p : Payload} {k : Byte} {c : BitVec 32} (h : decodeInfoFields p = .infoDig k c) :
    k.toNat ≤ 3 := by
  simp only [decodeInfoFields] at h
  split at h
  · cases h
  split at h
  · split at h
    · cases h
    · rename_i hk
      cases h
      exact Nat.not_lt.1 hk
  · cases h

theorem chunkIndex_le_of_decodeMessage {base : Ident} {f : RxFrame} {k : Byte} {c : BitVec 32}
    (h : decodeMessage base f = .infoDig k c) : k.toNat ≤ 3 := by
  unfold decodeMessage at h
  split at h
  case h_3 =>
    split at h
    · exact chunkIndex_le_of_decodeInfoFields h
    · cases h
  case h_1 => cases h
  all_goals
    split at h
    all_goals cases h

theorem wellFormed_of_decodeFrame {base : Ident} {f : RxFrame} {i : Instr} (h : decodeFrame base f = .ok i) :
    i.wellFormed = true := by
  unfold decodeFrame at h
  cases hm : decodeMessage base f with
  | infoDig k c =>
    rw [hm] at h
    cases h
    exact decide_eq_true (chunkIndex_le_of_decodeMessage hm)
  | data | infoLen | progress =>
    rw [hm] at h
    cases h
    rfl
  | notFutp | decodeError =>
    rw [hm] at h
    cases h

/-- An operation a control state selects has no operands. -/
theorem wellFormed_of_control {i : Instr} (h : i.format = .control) : i.wellFormed = true := by
  cases i
  case infoDig | encInfoDig | encData | blkFetch | curUpdate => cases h
  all_goals rfl

theorem format_of_decodeLinkOp {c : ControlCode} {b : Bool} {i : Instr} (h : decodeLinkOp c b = .ok i) : i.format = .control := by
  unfold decodeLinkOp at h
  repeat' split at h
  all_goals cases h
  all_goals rfl

theorem format_of_decodeOpening {c : ControlCode} {i : Instr} (h : decodeOpening c = .ok i) : i.format = .control := by
  unfold decodeOpening at h
  repeat' split at h
  all_goals cases h
  all_goals rfl

theorem format_of_decodeHandshake {c : ControlCode} {round eval i : Instr} (hround : round.format = .control)
    (heval : eval.format = .control) (h : decodeHandshake c round eval = .ok i) : i.format = .control := by
  unfold decodeHandshake at h
  split at h
  · repeat' split at h
    all_goals cases h
    case h_1.isTrue | h_4 | h_5 => rfl
    case h_1.isFalse | h_2 | h_3 => exact hround
    case h_6 => exact heval
  · exact format_of_decodeLinkOp h

theorem format_of_decodeTransient {c : ControlCode} {j i : Instr} (hj : j.format = .control) (h : decodeTransient c j = .ok i) :
    i.format = .control := by
  unfold decodeTransient at h
  split at h
  · cases h; exact hj
  · cases h

theorem format_of_decodeTransfer {c : ControlCode} {i : Instr} (h : decodeTransfer c = .ok i) : i.format = .control := by
  unfold decodeTransfer at h
  split at h
  · repeat' split at h
    all_goals cases h
    all_goals rfl
  · exact format_of_decodeLinkOp h

/-- What a control state selects is a control-state operation, phase by phase. -/
theorem format_of_decodeControl {c : ControlCode} {i : Instr} (h : decodeControl c = .ok i) : i.format = .control := by
  unfold decodeControl at h
  split at h
  case h_6 => exact format_of_decodeOpening h
  case h_7 => exact format_of_decodeHandshake rfl rfl h
  case h_8 => exact format_of_decodeTransient rfl h
  case h_9 => exact format_of_decodeHandshake rfl rfl h
  case h_10 => exact format_of_decodeTransient rfl h
  case h_11 => exact format_of_decodeTransfer h
  all_goals cases h

theorem wellFormed_of_decode {base : Ident} {c : Code} {i : Instr} (h : decode base c = .ok i) : i.wellFormed = true := by
  cases c with
  | frame f => exact wellFormed_of_decodeFrame h
  | command v => rcases decodeCommand_ok h with rfl | rfl <;> rfl
  | control c => exact wellFormed_of_control (format_of_decodeControl h)
  | functionCall => cases h

/-! ### The host's command -/

theorem step_command {s : State} {v : BitVec 2} {i : Instr} {rest : List Turn} (hs : s.script = .host (.cmd v) :: rest)
    (hi : decodeCommand v = .ok i) : step s = exec i { s with script := rest } := by
  rw [step_host hs, State.serveHost, hi]

theorem decodeCommand_ignored {v : BitVec 2} (hv : v = 0#2 ∨ v = 3#2) : decodeCommand v = .error .ignoredCommand := by
  rcases hv with rfl | rfl <;> rfl

/-- A CMD write of 0 or 3 does nothing (R110). -/
theorem step_command_ignored {s : State} {v : BitVec 2} {rest : List Turn} (hs : s.script = .host (.cmd v) :: rest)
    (hv : v = 0#2 ∨ v = 3#2) : step s = .next { s with script := rest } := by
  rw [step_host hs, State.serveHost, decodeCommand_ignored hv]
  rfl

/-! ### The internal computation before a step -/

/-- Where nothing is drawn the environment is silent. -/
theorem State.loop_eq_nil_of_drawTurn {s : State} (hs : s.script = []) (hd : s.drawTurn.script = []) : s.loop = [] := by
  cases hl : s.loop with
  | nil => rfl
  | cons x rest =>
    by_cases hx : x = .any
    · simp only [State.drawTurn, hs, hl, hx] at hd
      split at hd <;> cases hd
    · rw [State.drawTurn_loop hs hl hx, hl] at hd
      cases hd

/-- The block's next turn is time alone, or the block computes to the end and makes its atomic step: on an answer, or in silence. -/
theorem State.blockNext_cases {s : State} (h : s.blockNext) :
    (∃ rest, s.script = .tick :: rest) ∨ (∃ r rest, s.script = .reply r :: rest) ∨ (s.script = [] ∧ s.loop = []) := by
  obtain ⟨hdraw, hblock⟩ := h
  have hany := s.drawTurn_head
  rw [hdraw] at hany
  rw [State.blockTurn, hdraw] at hblock
  match hs : s.script with
  | [] =>
    have hloop : s.loop = [] := State.loop_eq_nil_of_drawTurn hs (by rw [hdraw, hs])
    exact .inr (.inr ⟨rfl, hloop⟩)
  | .tick :: rest => exact .inl ⟨rest, rfl⟩
  | .reply r :: rest => exact .inr (.inl ⟨r, rest, rfl⟩)
  | .host a :: rest => rw [hs] at hblock; cases hblock
  | .reset :: rest => rw [hs] at hblock; cases hblock
  | .any :: rest => exact absurd hs (hany rest)

/-- On an answer or in silence, computing first and stepping then is one step. -/
theorem step_settle {s t : State} (h : s.settle settleSteps = .next t) (hb : s.blockNext)
    (ht : ∀ rest, s.script ≠ .tick :: rest) : step s = step t := by
  have hout := (State.computes_of_settle h).outside
  have hscript : t.script = s.script := by rw [hout]
  have hloop : t.loop = s.loop := by rw [hout]
  have hend : t.settle settleSteps = s.settle settleSteps := by
    rw [State.settle_of_not_computing (State.settleSteps_settled h), h]
  rcases s.blockNext_cases hb with ⟨rest, hs⟩ | ⟨r, rest, hs⟩ | ⟨hs, hl⟩
  · exact absurd hs (ht rest)
  · rw [step_reply hs, step_reply (hscript.trans hs), hend]
  · rw [step_silent hs hl, step_silent (hscript.trans hs) (hloop.trans hl), hend]

theorem step_tick_settle {s t : State} {rest : List Turn} (h : s.settle settleSteps = .next t) (hc : s.computing = true)
    (hs : s.script = .tick :: rest) : step s = .next { t with script := rest } := by
  have hscript : t.script = .tick :: rest := by rw [(State.computes_of_settle h).outside]; exact hs
  rw [step_tick_computing hs hc, h]
  simp only [andThen, State.pop_cons hscript]

/-! ### The operation run at an atomic step -/

/-- On an answer the block at its atomic step runs what it fetches. -/
theorem step_reply_settled {s : State} {r : Reply} {rest : List Turn} {i : Instr} (hc : s.computing = false)
    (hr : s.phase.atRest = false) (hs : s.script = .reply r :: rest) (hi : s.blockFetch = .ok i) : step s = exec i s := by
  rw [step_reply hs, State.settle_of_not_computing hc]
  exact State.serve_running hr hi

/-- In silence too. -/
theorem step_silent_settled {s : State} {i : Instr} (hc : s.computing = false)
    (hr : s.phase.atRest = false) (hs : s.script = []) (hl : s.loop = []) (hi : s.blockFetch = .ok i) : step s = exec i s := by
  rw [step_silent hs hl, State.settle_of_not_computing hc]
  exact State.serve_running hr hi

/-- The outstanding receive's own operation. -/
theorem State.selected_receiving {s : State} (h : s.receiving = true) : s.selected = .ok .lsRecv := by
  obtain ⟨hp, ho, hq, hs, -⟩ := State.receiving_iff.1 h
  have hlink (b : Bool) : s.linkSelection b = .ok .lsRecv := by simp only [State.linkSelection, ho, hq, if_pos hs]
  have hop : s.op ≠ .noOp := by simp [ho]
  cases hph : s.phase
  case sendingDigest => rw [State.selected_sendingDigest hph, if_neg hop, hlink]
  case sendingLength => rw [State.selected_sendingLength hph, if_neg hop, hlink]
  case transfer => rw [State.selected_transfer hph, if_neg hop, hlink]
  all_goals simp [hph, Phase.exchanging] at hp

/-- With a frame at hand the outstanding receive fetches the operation the frame is, and LS.RECV for a frame that is none. -/
theorem State.blockFetch_frame {s : State} {r : Reply} {rest : List Turn} {f : RxFrame} (hs : s.script = .reply r :: rest)
    (hr : s.receiving = true) (hf : r.received = .frame f) :
    (∀ i, decodeFrame s.cfg.baseId f = .ok i → s.blockFetch = .ok i) ∧
    (∀ e, decodeFrame s.cfg.baseId f = .error e → s.blockFetch = .ok .lsRecv) := by
  unfold State.blockFetch
  rw [hs]
  refine ⟨fun i hi => ?_, fun e he => ?_⟩
  · simp only [hr, hf, hi, if_true]
  · simp only [hr, hf, he, if_true]
    exact State.selected_receiving hr

/-- Time alone at an atomic step: an Emit is made by the operation selected, anything else waits. -/
theorem step_tick_selected {s : State} {rest : List Turn} {i : Instr} (hc : s.computing = false) (hr : s.phase.atRest = false)
    (hs : s.script = .tick :: rest) (hi : s.selected = .ok i) :
    step s = if s.atEmit = true then exec i { s with script := rest } else .next { s with script := rest } := by
  rw [step_tick_settled hs hc, State.giveTime]
  change (if s.atEmit = true then _ else _) = _
  split
  · rename_i he
    have hrecv : ({ s with script := rest } : State).receiving = false := State.not_receiving_atEmit (s := s) he
    have hfetch : ({ s with script := rest } : State).blockFetch = .ok i := by
      rw [State.blockFetch_selected (by simp [hrecv])]
      exact hi
    exact State.serve_running (s := { s with script := rest }) hr hfetch
  · rfl

/-- Settles O4, turn by turn. -/
theorem stepRunsFetchedOperation : Obligations.StepRunsFetchedOperation := by
  refine ⟨fun base c i => wellFormed_of_decode, fun s i => ⟨step_drawTurn s, ?command, ?line, ?computed, ?atomic⟩⟩
  case command => exact fun v rest hs => ⟨step_command hs, step_command_ignored hs⟩
  case line =>
    intro t hc hi he
    rw [State.settle_line hc hi, he]
    rfl
  case computed =>
    intro t h
    have hout := (State.computes_of_settle h).outside
    exact ⟨State.settleSteps_settled h, by rw [hout], by rw [hout], step_settle h, fun rest => step_tick_settle h⟩
  case atomic =>
    intro hc hr
    refine ⟨fun r rest f hs hrecv hf => ?_, fun hi => ⟨fun hs hl => ?_, fun r rest hs hno => ?_, fun rest hs => ?_⟩⟩
    · obtain ⟨hok, herror⟩ := State.blockFetch_frame hs hrecv hf
      exact ⟨fun hi => step_reply_settled hc hr hs (hok i hi), fun e he => step_reply_settled hc hr hs (herror e he)⟩
    · have hfetch : s.blockFetch = s.selected := State.blockFetch_selected (by simp [hs])
      exact step_silent_settled hc hr hs hl (hfetch.trans hi)
    · refine step_reply_settled hc hr hs ((State.blockFetch_selected ?_).trans hi)
      intro r' rest' f hs' hrecv hf
      obtain ⟨rfl, -⟩ : r = r' ∧ rest = rest' := by simpa [hs] using hs'
      rcases hno with hno | hno
      · simp [hno] at hrecv
      · exact hno f hf
    · exact step_tick_selected hc hr hs hi

end Sys2Proof.Machine
end

section
/-!
PROOFS. The frame codec byte by byte: the payload bytes of the encoders, the classes of identifiers, the order of the decoder's
checks, and the encoder as the decoder's inverse (O6, O9, O10, O11, O13, O14, O15, O16).
-/
namespace Sys2Proof.Machine

/-! ### Bytes of the payload word (R11) -/

/-- A part of the payload word at or above where a field was put is that part of the field. -/
theorem getField_putField_above {w w' off off' : Nat} (v : BitVec w) (h : off ≤ off') (h' : off' + w' ≤ 64) :
    getField w' off' (putField off v) = (v >>> (off' - off)).setWidth w' := by
  apply BitVec.eq_of_getLsbD_eq
  intro k hk
  rw [getLsbD_getField, getLsbD_putField, BitVec.getLsbD_setWidth, BitVec.getLsbD_ushiftRight,
    show off' + k - off = off' - off + k by omega]
  simp [show off' + k < 64 by omega, show off ≤ off' + k by omega]

/-- Two fields side by side are one field. -/
theorem getField_or_getField {w w' off n : Nat} (p : Payload) :
    (getField w off p).setWidth n ||| (getField w' (off + w) p).setWidth n <<< w = (getField (w + w') off p).setWidth n := by
  apply BitVec.eq_of_getLsbD_eq
  intro k hk
  simp only [BitVec.getLsbD_or, BitVec.getLsbD_shiftLeft, BitVec.getLsbD_setWidth, getLsbD_getField, hk, decide_true, Bool.true_and]
  by_cases hw : k < w
  · simp [hw, show k < w + w' by omega]
  · simp [hw, show k - w < n by omega, show off + w + (k - w) = off + k by omega, show k - w < w' ↔ k < w + w' by omega]

theorem payloadByte_eq_getField (p : Payload) (b : Nat) : payloadByte p b = getField 8 (8 * b) p := rfl

theorem getFlag_eq_getLsbD (p : Payload) {k : Nat} (h : k < 8) : getFlag k p = (payloadByte p 0).getLsbD k := by
  rw [payloadByte_eq_getField, getLsbD_getField, getFlag]
  simp [h]

theorem payloadBytes_eq (p : Payload) :
    (List.range 8).map (payloadByte p) = [payloadByte p 0, payloadByte p 1, payloadByte p 2, payloadByte p 3, payloadByte p 4,
      payloadByte p 5, payloadByte p 6, payloadByte p 7] := rfl

/-- The u32 at payload bytes 1 to 4 is the field at bit 8. -/
theorem payloadU32_eq_getField (p : Payload) : payloadU32 p = getField 32 8 p := by
  have h16 := getField_or_getField (w := 8) (w' := 8) (off := 8) (n := 32) p
  have h24 := getField_or_getField (w := 16) (w' := 8) (off := 8) (n := 32) p
  have h32 := getField_or_getField (w := 24) (w' := 8) (off := 8) (n := 32) p
  calc payloadU32 p
      = (getField 8 8 p).setWidth 32 ||| (getField 8 (8 + 8) p).setWidth 32 <<< 8 ||| (getField 8 (8 + 16) p).setWidth 32 <<< 16
          ||| (getField 8 (8 + 24) p).setWidth 32 <<< 24 := rfl
    _ = (getField 32 8 p).setWidth 32 := by rw [h16, h24, h32]
    _ = getField 32 8 p := BitVec.setWidth_eq _

/-- Byte b of the u32 at bit 8 is payload byte 1 + b. -/
theorem wordByte_getField (p : Payload) {b : Nat} (h : b ≤ 3) : wordByte (getField 32 8 p) b = payloadByte p (1 + b) := by
  apply BitVec.eq_of_getLsbD_eq
  intro k hk
  simp only [wordByte, payloadByte, BitVec.getLsbD_setWidth, BitVec.getLsbD_ushiftRight, getLsbD_getField,
    show 8 * b + k < 32 by omega, show 8 + (8 * b + k) = 8 * (1 + b) + k by omega, decide_true, Bool.true_and]

/-- The payload word is its eight bytes. -/
theorem payload_eq_of_bytes {p q : Payload} (h : (List.range 8).map (payloadByte p) = (List.range 8).map (payloadByte q)) :
    p = q := by
  apply BitVec.eq_of_getLsbD_eq
  intro k hk
  have hbyte : payloadByte p (k / 8) = payloadByte q (k / 8) := List.map_inj_left.1 h _ (List.mem_range.2 (by omega))
  have hbit := congrArg (BitVec.getLsbD · (k % 8)) hbyte
  simpa [payloadByte, Nat.mod_lt, Nat.div_add_mod] using hbit

/-! ### The payload bytes of the encoders (R123 to R126) -/

theorem payloadByte_check_encodeData (base : Ident) (i : Index) (d : Block) :
    payloadByte (encodeData base i d).payload 0 = i.setWidth 8 :=
  getField_check_encodeData base i d

theorem payloadByte_data_encodeData (base : Ident) (i : Index) (d : Block) {b : Nat} (h : b ≤ 6) :
    payloadByte (encodeData base i d).payload (1 + b) = blockByte d b := by
  rw [← blockByte_dataField _ h, getField_data_encodeData]

/-- The payload bytes of an INFO or PROGRESS frame: byte 0, the u32, byte 5 and zeros. -/
def u32Bytes (byte0 : Byte) (v : BitVec 32) (byte5 : Byte) : List Byte :=
  [byte0, wordByte v 0, wordByte v 1, wordByte v 2, wordByte v 3, byte5, 0, 0]

theorem payloadBytes_encodeInfoLen (base : Ident) (v : BitVec 32) :
    (List.range 8).map (payloadByte (encodeInfoLen base v).payload) = u32Bytes typeLength v 0 := by
  simp (disch := decide) [payloadBytes_eq, payloadByte_eq_getField, encodeInfoLen, futpLayout, getField_putField_above, u32Bytes,
    wordByte]

theorem payloadBytes_encodeInfoDig (base : Ident) (k : Byte) (v : BitVec 32) :
    (List.range 8).map (payloadByte (encodeInfoDig base k v).payload) = u32Bytes typeDigest v k := by
  simp (disch := decide) [payloadBytes_eq, payloadByte_eq_getField, encodeInfoDig, futpLayout, getField_putField_above, u32Bytes,
    wordByte]

/-- The byte of the three flags of PROGRESS (R98). -/
def flagByte (rd rl wr : Bool) : Byte := BitVec.ofNat 8 (rd.toNat + 2 * rl.toNat + 4 * wr.toNat)

theorem payloadBytes_encodeProgress (base : Ident) (rd rl wr : Bool) (v : BitVec 32) :
    (List.range 8).map (payloadByte (encodeProgress base rd rl wr v).payload) = u32Bytes (flagByte rd rl wr) v 0 := by
  have hflags : getField 8 0 (putField 0 (BitVec.ofBool rd)) ||| getField 8 0 (putField 1 (BitVec.ofBool rl))
      ||| getField 8 0 (putField 2 (BitVec.ofBool wr)) = flagByte rd rl wr := by
    revert rd rl wr; decide
  simp (disch := decide) only [payloadBytes_eq, payloadByte_eq_getField, encodeProgress, futpLayout, getField_or, hflags]
  simp (disch := decide) [getField_putField_above, u32Bytes, wordByte]

/-- A byte whose upper five bits are zero is the byte of its three flags. -/
theorem flagByte_getLsbD {b : Byte} (h : b >>> 3 = 0) : flagByte (b.getLsbD 0) (b.getLsbD 1) (b.getLsbD 2) = b := by
  have hlt : b.toNat < 8 := by
    have hzero : b.toNat >>> 3 = 0 := congrArg BitVec.toNat h
    rw [Nat.shiftRight_eq_div_pow] at hzero
    omega
  obtain ⟨n, rfl⟩ : ∃ n : Fin 8, b = BitVec.ofNat 8 n := ⟨⟨b.toNat, hlt⟩, by simp⟩
  revert n; decide

/-! ### Identifiers (R70, R92, R128) -/

theorem legalBase.toNat_lt {base : Ident} (h : legalBase base) : base.toNat < 2 ^ 11 :=
  Nat.lt_pow_two_of_testBit _ fun _ => h.getLsbD

theorem toNat_infoId {base : Ident} (h : legalBase base) : (infoId base).toNat = base.toNat + 1 := by
  have hlt := h.toNat_lt
  unfold infoId
  bv_omega

theorem toNat_progressId {base : Ident} (h : legalBase base) : (progressId base).toNat = base.toNat + 2 := by
  have hlt := h.toNat_lt
  unfold progressId
  bv_omega

theorem and_baseMask_eq_iff {base id : Ident} : id &&& baseMask = base ↔ id.toNat % 2048 = base.toNat := by
  rw [← BitVec.toNat_inj, toNat_and_baseMask]
  rfl

/-- Which identifier each answer of DEMUX but OTHER was given for. -/
theorem demuxId_cases (base id : Ident) :
    demuxId base id = .progress ∧ id = progressId base ∨ demuxId base id = .info ∧ id = infoId base ∨
      demuxId base id = .data ∧ id &&& baseMask = base ∨ demuxId base id = .other := by
  unfold demuxId
  split
  · exact .inl ⟨rfl, by assumption⟩
  split
  · exact .inr (.inl ⟨rfl, by assumption⟩)
  split
  · exact .inr (.inr (.inl ⟨rfl, by assumption⟩))
  · exact .inr (.inr (.inr rfl))

/-- The check byte is the index's low byte: the identifier has no bit there. -/
theorem setWidth_dataIndex (id : Ident) (check : Byte) : (dataIndex id check).setWidth 8 = check := by
  apply BitVec.eq_of_getLsbD_eq
  intro k hk
  simp only [dataIndex, BitVec.getLsbD_or, BitVec.getLsbD_setWidth, BitVec.getLsbD_ushiftRight, BitVec.getLsbD_and,
    getLsbD_indexMask (show 3 + k < 29 by omega)]
  simp [hk, show k < 26 by omega, show ¬ 11 ≤ 3 + k by omega]

/-- A DATA identifier is that of the index it carries. -/
theorem dataId_dataIndex {base id : Ident} (hb : legalBase base) (h : id &&& baseMask = base) (check : Byte) :
    dataId base (dataIndex id check) = id := by
  apply BitVec.eq_of_getLsbD_eq
  intro k hk
  rw [getLsbD_dataId hb _ hk]
  split
  case isTrue hlow =>
    have hmask : baseMask.getLsbD k = true := by revert k; decide
    rw [← h, BitVec.getLsbD_and, hmask, Bool.and_true]
  case isFalse hhigh =>
    have hindex : indexMask.getLsbD k = true := by rw [getLsbD_indexMask hk]; simpa using hhigh
    have hcheck : check.getLsbD (k - 3) = false := BitVec.getLsbD_of_ge check (k - 3) (by omega)
    simp [dataIndex, hindex, hcheck, show 3 + (k - 3) = k by omega, show k - 3 < 26 by omega]

/-! ### The encoder as the decoder's inverse (R134) -/

/-- A frame that decodes has eight payload bytes, and one of the three field decoders answered. -/
theorem decodeFrame_cases {base : Ident} {f : RxFrame} {i : Instr} (h : decodeFrame base f = .ok i) :
    f.len = 8 ∧ (f.id = progressId base ∧ Instr.ofMessage (decodeProgressFields f.payload) = .ok i ∨
      f.id = infoId base ∧ Instr.ofMessage (decodeInfoFields f.payload) = .ok i ∨
      f.id &&& baseMask = base ∧ Instr.ofMessage (decodeDataFields f.id f.payload) = .ok i) := by
  by_cases hlen : f.len = 8
  · refine ⟨hlen, ?_⟩
    rcases demuxId_cases base f.id with ⟨hkind, hid⟩ | ⟨hkind, hid⟩ | ⟨hkind, hid⟩ | hkind <;>
      simp only [decodeFrame, decodeMessage, hkind, if_pos hlen] at h
    · exact .inl ⟨hid, h⟩
    · exact .inr (.inl ⟨hid, h⟩)
    · exact .inr (.inr ⟨hid, h⟩)
    · cases h
  · rcases demuxId_cases base f.id with ⟨hkind, -⟩ | ⟨hkind, -⟩ | ⟨hkind, -⟩ | hkind <;>
      simp only [decodeFrame, decodeMessage, hkind, if_neg hlen] at h <;> cases h

/-- The two INFO messages DEC.INFO answers, with the type byte each has. -/
theorem decodeInfoFields_cases {p : Payload} {i : Instr} (h : Instr.ofMessage (decodeInfoFields p) = .ok i) :
    payloadByte p 0 = typeLength ∧ i = .infoLen (getField 32 8 p) ∨
      payloadByte p 0 = typeDigest ∧ i = .infoDig (payloadByte p 5) (getField 32 8 p) := by
  simp only [decodeInfoFields] at h
  split at h
  · cases h
    exact .inl ⟨by assumption, rfl⟩
  split at h
  · split at h
    · cases h
    · cases h
      exact .inr ⟨by assumption, rfl⟩
  · cases h

/-- A payload with the bytes of a u32 frame is determined by byte 0, the u32 and byte 5. -/
theorem payload_eq_of_u32Bytes {p q : Payload}
    (h : (List.range 8).map (payloadByte p) = u32Bytes (payloadByte q 0) (getField 32 8 q) (payloadByte q 5))
    (h6 : payloadByte q 6 = 0) (h7 : payloadByte q 7 = 0) : p = q := by
  apply payload_eq_of_bytes
  have hu32 : u32Bytes (payloadByte q 0) (getField 32 8 q) (payloadByte q 5) =
      [payloadByte q 0, payloadByte q (1 + 0), payloadByte q (1 + 1), payloadByte q (1 + 2), payloadByte q (1 + 3), payloadByte q 5,
        0, 0] := by
    simp only [u32Bytes, wordByte_getField q, Nat.zero_le, Nat.le_refl, Nat.reduceLeDiff]
  rw [h, hu32, payloadBytes_eq, h6, h7]

theorem encodeData_payload_eq (base id : Ident) (p : Payload) :
    (encodeData base (dataIndex id (payloadByte p 0)) (getField 56 futpLayout.dataField p)).payload = p := by
  apply payload_eq_of_bytes
  apply List.map_congr_left
  intro b hb
  cases b with
  | zero => rw [payloadByte_check_encodeData, setWidth_dataIndex]
  | succ b =>
    have hb6 : b ≤ 6 := by have := List.mem_range.1 hb; omega
    rw [Nat.add_comm, payloadByte_data_encodeData _ _ _ hb6, blockByte_dataField p hb6]

theorem Frame.received_eq {g : Frame} {f : RxFrame} (hid : g.id = f.id) (hp : g.payload = f.payload) (hlen : f.len = 8) :
    g.received = f := by
  rw [Frame.received, hid, hp, ← hlen]

/-- A frame that decodes, its padding zero, is what the encoder makes of the operation. -/
theorem encode_of_decodeFrame {base : Ident} (hb : legalBase base) {f : RxFrame} {i : Instr} (h : decodeFrame base f = .ok i)
    (hz : paddingZero f.payload i) : encode base i = .frame f := by
  obtain ⟨hlen, ⟨hid, hi⟩ | ⟨hid, hi⟩ | ⟨hid, hi⟩⟩ := decodeFrame_cases h
  · cases hi
    obtain ⟨hflags, h5, h6, h7⟩ := hz
    refine congrArg Code.frame (Frame.received_eq hid.symm (payload_eq_of_u32Bytes ?_ h6 h7) hlen)
    rw [payloadBytes_encodeProgress, h5, getFlag_eq_getLsbD _ (by decide), getFlag_eq_getLsbD _ (by decide),
      getFlag_eq_getLsbD _ (by decide)]
    exact congrArg (u32Bytes · _ 0) (flagByte_getLsbD hflags)
  · rcases decodeInfoFields_cases hi with ⟨htype, rfl⟩ | ⟨htype, rfl⟩
    · obtain ⟨h5, h6, h7⟩ := hz
      refine congrArg Code.frame (Frame.received_eq hid.symm (payload_eq_of_u32Bytes ?_ h6 h7) hlen)
      rw [payloadBytes_encodeInfoLen, h5, htype]
    · obtain ⟨h6, h7⟩ := hz
      refine congrArg Code.frame (Frame.received_eq hid.symm (payload_eq_of_u32Bytes ?_ h6 h7) hlen)
      rw [payloadBytes_encodeInfoDig, htype]
  · cases hi
    exact congrArg Code.frame (Frame.received_eq (dataId_dataIndex hb hid _) (encodeData_payload_eq base f.id f.payload) hlen)

/-- Settles O6: the decoders on encoded frames, and the encoder as the decoder's inverse. -/
theorem frameCodecRoundTrip : Obligations.FrameCodecRoundTrip := fun base hb =>
  ⟨decodeMessage_encodeData hb, decodeMessage_encodeInfoLen base, fun _ c => decodeMessage_encodeInfoDig base c,
    decodeMessage_encodeProgress base, fun _ _ => encode_of_decodeFrame hb⟩

/-! ### The demultiplexer and the decoders as operations -/

/-- DEMUX in numbers, for a legal base: none of its sums wraps. -/
theorem demuxId_eq {base : Ident} (h : legalBase base) (id : Ident) :
    demuxId base id =
      if id.toNat = base.toNat + 2 then .progress
      else if id.toNat = base.toNat + 1 then .info
      else if id.toNat % 2048 = base.toNat then .data
      else .other := by
  simp only [demuxId, ← BitVec.toNat_inj (x := id), toNat_progressId h, toNat_infoId h, and_baseMask_eq_iff]

/-- Settles O9: DEMUX in numbers; a DATA identifier differs from the base by a multiple of 2048. -/
theorem demuxByIdentifier : Obligations.DemuxByIdentifier := by
  intro s id hb
  refine ⟨?_, fun hdata => by omega⟩
  rw [← demuxId_eq hb]
  rfl

/-- Settles O10, kind by kind. -/
theorem decodeOrderOfChecks : Obligations.DecodeOrderOfChecks := by
  intro s id p len
  refine ⟨decodeMessage s.cfg.baseId { id := id, payload := p, len := len }, rfl, ?_⟩
  unfold decodeMessage
  cases demuxId s.cfg.baseId id with
  | other => rfl
  | data | info | progress =>
    by_cases hlen : len = 8
    · simp only [if_pos hlen]; rfl
    · simp only [if_neg hlen]

/-- Settles O11: each field is payload bytes. -/
theorem fieldDecodersReadBytes : Obligations.FieldDecodersReadBytes := by
  intro s id p
  rw [payloadU32_eq_getField]
  refine ⟨fun _ _ => ⟨_, _, rfl, toNat_dataIndex id _, fun b => blockByte_dataField p⟩, rfl, ?_⟩
  rw [← getFlag_eq_getLsbD p (show 0 < 8 by decide), ← getFlag_eq_getLsbD p (show 1 < 8 by decide),
    ← getFlag_eq_getLsbD p (show 2 < 8 by decide)]
  rfl

/-! ### Block arithmetic and block fetch (R121, R122) -/

/-- 33 bits hold the block count of every length. -/
theorem toNat_blockCountOf (len : BitVec 32) : (blockCountOf len).toNat = (len.toNat + 6) / 7 := by
  rw [blockCountOf, BitVec.toNat_ofNat]
  omega

/-- Settles O13: the quotient is the ceiling. -/
theorem blockCountIsCeiling : Obligations.BlockCountIsCeiling := by
  intro s len
  refine ⟨blockCountOf len, rfl, ?_⟩
  rw [toNat_blockCountOf]
  refine ⟨rfl, ?_, fun m hm => ?_, ?_, fun h => ?_⟩ <;> omega

/-- Byte b of packed bytes is the byte listed at b. -/
theorem blockByte_packBytes (l : List Byte) {b : Nat} (h : b ≤ 6) : blockByte (packBytes l) b = l.getD b 0 := by
  induction l generalizing b with
  | nil => simp [packBytes, blockByte]
  | cons x l ih =>
    cases b with
    | zero =>
      apply BitVec.eq_of_getLsbD_eq
      intro k hk
      simp [packBytes, blockByte, hk]
    | succ b =>
      rw [List.getD_cons_succ, ← ih (by omega)]
      apply BitVec.eq_of_getLsbD_eq
      intro k hk
      have hx : x.getLsbD (8 * (b + 1) + k) = false := BitVec.getLsbD_of_ge x _ (by omega)
      simp [packBytes, blockByte, hk, hx, show 8 * (b + 1) + k < 56 by omega, show ¬ 8 * (b + 1) + k < 8 by omega,
        show 8 * (b + 1) + k - 8 = 8 * b + k by omega, -BitVec.getLsbD_eq_getElem]

theorem getD_map_range (g : Nat → Byte) (n b : Nat) : ((List.range n).map g).getD b 0 = if b < n then g b else 0 := by
  by_cases h : b < n <;> simp [List.getD_eq_getElem?_getD, h]

/-- BLK.FETCH of a block of the image, byte by byte. -/
theorem State.fetchBlock_some {s : State} {i : Nat} (h : i < (s.imgLen.toNat + 6) / 7) :
    ∃ d, s.fetchBlock i = some d ∧
      ∀ b, b ≤ 6 → blockByte d b = if 7 * i + b < s.imgLen.toNat then s.imgByte (7 * i + b) else 0 := by
  refine ⟨_, if_pos (by omega), fun b hb => ?_⟩
  rw [blockByte_packBytes _ hb, getD_map_range, if_pos (by omega), State.memRead, getD_map_range]
  simp only [show b < min 7 (s.imgLen.toNat - 7 * i) ↔ 7 * i + b < s.imgLen.toNat by omega]

/-- Settles O14, by the fetched block's bytes. -/
theorem blockFetchReadsAndPads : Obligations.BlockFetchReadsAndPads := by
  intro s i hi
  obtain ⟨d, hd, hbytes⟩ := State.fetchBlock_some hi
  exact ⟨d, by simp only [exec, execBlkFetch, hd, returnValue], hbytes⟩

/-! ### The encoders as operations (R123 to R126) -/

/-- The identifier of ENC.DATA computed in 32 bits. -/
theorem dataId_setWidth (base : Ident) (i : BitVec 32) :
    dataId base (i.setWidth 26) = base ||| (i <<< 3 &&& 0x1FFFF800#32).setWidth 29 := by
  apply BitVec.eq_of_getLsbD_eq
  intro k hk
  have hmask : (0x1FFFF800#32).getLsbD k = indexMask.getLsbD k := by revert k; decide
  simp only [dataId, BitVec.getLsbD_or, BitVec.getLsbD_and, BitVec.getLsbD_shiftLeft, BitVec.getLsbD_setWidth, hmask]
  simp [hk, show k < 32 by omega, show k - 3 < 29 by omega, show k - 3 < 26 by omega]

/-- Settles O15, by the identifier and the payload bytes of the encoder. -/
theorem encDataBytes : Obligations.EncDataBytes := by
  intro s i d _ hi
  refine ⟨encodeData s.cfg.baseId (i.setWidth 26) d, if_pos hi, dataId_setWidth _ i, ?_, fun b => payloadByte_data_encodeData _ _ d⟩
  rw [payloadByte_check_encodeData]
  simp [wordByte]

/-- Settles O16, encoder by encoder. -/
theorem encInfoAndProgressBytes : Obligations.EncInfoAndProgressBytes := by
  intro s v k rd rl wr hb hk
  exact ⟨⟨_, rfl, toNat_infoId hb, payloadBytes_encodeInfoLen _ v⟩,
    ⟨_, if_pos hk, toNat_infoId hb, payloadBytes_encodeInfoDig _ k v⟩,
    ⟨_, rfl, toNat_progressId hb, payloadBytes_encodeProgress _ rd rl wr v⟩⟩

end Sys2Proof.Machine
end

section
/-!
PROOFS. The link supervisor, transition by transition: the calls, the requests with both answers, the recovery and the returns
(O25, O26, O27, O32, O34, O35, O36, O38).
-/
namespace Sys2Proof.Machine

/-! ### The channel a request is made on, and its timeout -/

theorem State.live_eq_none {s : State} (h : s.link ≠ .up) : s.live = none := by
  unfold State.live
  cases hl : s.link
  case up => exact absurd hl h
  all_goals rfl

/-- R157: which duration register the receive in progress waits by. -/
theorem State.recvTimeout_eq {s : State} {t : Duration}
    (h : s.pstep = .rxDrain ∧ t = s.cfg.tDrain ∨ s.pstep = .rxTimed ∧ s.phase = .transfer ∧ t = s.cfg.tPace ∨
      s.pstep = .rxTimed ∧ s.phase ≠ .transfer ∧ t = s.cfg.tHsRx) : s.recvTimeout = t := by
  rcases h with ⟨hq, rfl⟩ | ⟨hq, hp, rfl⟩ | ⟨hq, hp, rfl⟩
  · simp [State.recvTimeout, hq]
  all_goals simp [State.recvTimeout, hq, hp]

/-! ### A request answered -/

section
variable {s : State} {r : Reply} {rest : List Turn}

theorem portOpen_opened (hs : s.script = .reply r :: rest) {c : Handle} (hr : r.opened = some c) (ok fail : State → State) :
    portOpen s ok fail =
      .next (ok { s with chan := some c, link := .up, script := rest, trace := .opened s.cfg.bus s.cfg.bitrate c :: s.trace }) := by
  rw [portOpen, awaitReply_reply _ hs]
  simp only [hr]

theorem portOpen_failed (hs : s.script = .reply r :: rest) (hr : r.opened = none) (ok fail : State → State) :
    portOpen s ok fail = .next (fail { s with script := rest, trace := .openFailed s.cfg.bus s.cfg.bitrate :: s.trace }) := by
  rw [portOpen, awaitReply_reply _ hs]
  simp only [hr, State.log]

theorem portSend_answered (hs : s.script = .reply r :: rest) (c : Handle) (ok fail : State → State) :
    portSend s c ok fail =
      .next ((if r.sent then ok else fail) { s with script := rest, trace := .sent c s.txf r.sent :: s.trace }) := by
  rw [portSend, awaitReply_reply _ hs]
  cases r.sent <;> rfl

theorem portRecv_nothing (hs : s.script = .reply r :: rest) (hr : r.received = .nothing) (c : Handle)
    (got : RxFrame → State → State) (nothing fail : State → State) :
    portRecv s c got nothing fail =
      .next (nothing { s with script := rest, trace := .received c s.recvTimeout .nothing :: s.trace }) := by
  rw [portRecv, awaitReply_reply _ hs]
  simp only [hr]
  rfl

theorem portRecv_err (hs : s.script = .reply r :: rest) (hr : r.received = .err) (c : Handle)
    (got : RxFrame → State → State) (nothing fail : State → State) :
    portRecv s c got nothing fail =
      .next (fail { s with script := rest, trace := .received c s.recvTimeout .err :: s.trace }) := by
  rw [portRecv, awaitReply_reply _ hs]
  simp only [hr]
  rfl

theorem portDone_answered (hs : s.script = .reply r :: rest) (e : Event) (k : State → State) :
    portDone s e k = .next (k { s with script := rest, trace := e :: s.trace }) := by
  rw [portDone, awaitReply_reply _ hs]
  rfl

end

/-! ### The returns, by the place they return to -/

theorem State.sendReturn_engine {s : State} (hp : s.phase = .transfer) :
    s.sendReturn = { s with op := .noOp, wsent := true, pstep := .rxTimed } := if_pos hp

theorem State.sendReturn_handshake {s : State} (hp : s.phase = .sendingDigest ∨ s.phase = .sendingLength) :
    s.sendReturn = { s with op := .noOp, pstep := .gap } :=
  if_neg (by rcases hp with hp | hp <;> simp [hp])

/-- sendReturn writes only OP, WSENT and PSTEP. -/
theorem State.sendReturn_frame (s : State) :
    s.sendReturn = { s with op := .noOp, wsent := s.sendReturn.wsent, pstep := s.sendReturn.pstep } := by
  rcases s.sendReturn_cases with ⟨-, h⟩ | ⟨-, h⟩ <;> rw [h]

theorem State.recvNone_handshake {s : State} (hp : s.phase = .sendingDigest ∨ s.phase = .sendingLength) :
    s.recvNone = { s with op := .noOp, pstep := .eval } :=
  if_neg (by rcases hp with hp | hp <;> simp [hp])

theorem State.recvNone_engine {s : State} (hp : s.phase = .transfer) :
    s.recvNone = State.slotDone { s with op := .noOp } := if_pos hp

/-- Where LS.CLOSE returns to from the engine's exit, and from a boundary. -/
theorem State.closeReturn_outcomes {o : Host.Outcome State Fault Refusal} {s : State} (h : o = .next s.closeReturn) :
    (s.phase = .transfer → s.pstep = .exit →
      o = .next { s with link := .closed, chan := none, op := .noOp, phase := .done, pstep := .boundary }) ∧
    (s.pstep = .boundary →
      o = .next { s with
        link := .closed, chan := none, op := .noOp, opstep := .tryPort, phase := .aborted, pstep := .boundary }) := by
  subst h
  refine ⟨fun hp hq => ?exit, fun hq => ?boundary⟩
  case exit => rw [State.closeReturn, if_pos ⟨hp, hq⟩]
  case boundary => rw [State.closeReturn, if_neg (by simp [hq])]

/-! ### After a slot's receives (43_transfer.md R192) -/

/-- The window has a next slot and the candidate of that slot is below BLOCKCOUNT. -/
def State.nextSendable (s : State) : Prop :=
  s.wSlot.toNat + 1 < s.cfg.window.toNat ∧ s.wbase.toInt + s.wSlot.toNat + 2 < s.blockcount.toNat

/-- W_SLOT + 1 does not wrap while W_SLOT is below CFG_WINDOW, so it is the next slot's test that seekSlot makes. -/
theorem State.nextSendable_iff {s : State} (hw : s.wSlot.toNat < s.cfg.window.toNat) :
    (s.wSlot + 1).toNat < s.cfg.window.toNat ∧ State.sendable { s with wSlot := s.wSlot + 1 } = true ↔ s.nextSendable := by
  have hnext : (s.wSlot + 1).toNat = s.wSlot.toNat + 1 := by
    have := s.cfg.window.isLt
    exact BitVec.toNat_add_of_lt (y := 1#8) (by simp only [BitVec.toNat_ofNat]; omega)
  simp only [State.nextSendable, State.sendable, State.candidate, hnext, decide_eq_true_eq]
  omega

theorem State.slotDone_next {s : State} (hw : s.wSlot.toNat < s.cfg.window.toNat) (hn : s.nextSendable) :
    s.slotDone = { s with wSlot := s.wSlot + 1, pstep := .send } := by
  rw [State.slotDone, if_pos hw]
  exact if_pos ((State.nextSendable_iff hw).2 hn)

/-- No further slot is sent: the report follows, with the extra receive before it if the window sent nothing. -/
theorem State.slotDone_over {s : State} (hw : s.wSlot.toNat < s.cfg.window.toNat) (hn : ¬ s.nextSendable) :
    s.slotDone = { s with wSlot := s.cfg.window, pstep := if s.wsent then .report else .rxTimed } := by
  rw [State.slotDone, if_pos hw]
  refine (if_neg (mt (State.nextSendable_iff hw).1 hn)).trans ?_
  cases s.wsent <;> rfl

theorem State.slotDone_extra {s : State} (hw : s.wSlot = s.cfg.window) : s.slotDone = { s with pstep := .report } :=
  if_neg (by simp [hw])

/-- WHERE A RECEIVE THAT ANSWERED `None` GOES ON, in the handshake and at each slot of the engine. -/
theorem State.recvNone_outcomes {o : Host.Outcome State Fault Refusal} {s : State} (h : o = .next s.recvNone) :
    (s.phase = .sendingDigest ∨ s.phase = .sendingLength → o = .next { s with op := .noOp, pstep := .eval }) ∧
    (s.phase = .transfer →
      (s.wSlot.toNat < s.cfg.window.toNat → s.nextSendable →
        o = .next { s with op := .noOp, wSlot := s.wSlot + 1, pstep := .send }) ∧
      (s.wSlot.toNat < s.cfg.window.toNat → ¬ s.nextSendable → s.wsent = true →
        o = .next { s with op := .noOp, wSlot := s.cfg.window, pstep := .report }) ∧
      (s.wSlot.toNat < s.cfg.window.toNat → ¬ s.nextSendable → s.wsent = false →
        o = .next { s with op := .noOp, wSlot := s.cfg.window, pstep := .rxTimed }) ∧
      (s.wSlot = s.cfg.window → o = .next { s with op := .noOp, pstep := .report })) := by
  subst h
  refine ⟨fun hp => by rw [State.recvNone_handshake hp], fun hp => ?_⟩
  rw [State.recvNone_engine hp]
  refine ⟨fun hw hn => ?next, fun hw hn hsent => ?sent, fun hw hn hsent => ?unsent, fun hw => ?extra⟩
  case next => rw [State.slotDone_next (s := { s with op := .noOp }) hw hn]
  case sent => rw [State.slotDone_over (s := { s with op := .noOp }) hw hn, if_pos hsent]
  case unsent => rw [State.slotDone_over (s := { s with op := .noOp }) hw hn, if_neg (by simp [hsent])]
  case extra => rw [State.slotDone_extra (s := { s with op := .noOp }) hw]

/-! ### LS.SEND and LS.RECV, line by line -/

section
variable {s : State} {c : Handle} {r : Reply} {rest : List Turn}

theorem exec_lsSend_unlinked (ho : s.op = .sendOp) (hq : s.opstep = .tryPort) (hl : s.link ≠ .up) :
    exec .lsSend s = .next { s with opstep := .recClose } := by
  simp only [exec, execLsSend, ho, hq, State.live_eq_none hl, takeException_linkSendFailed]

theorem exec_lsSend_failed (ho : s.op = .sendOp) (hq : s.opstep = .tryPort) (hl : s.live = some c)
    (hs : s.script = .reply r :: rest) (hr : r.sent = false) :
    exec .lsSend s = .next { s with opstep := .recClose, script := rest, trace := .sent c s.txf false :: s.trace } := by
  simp only [exec, execLsSend, ho, hq, hl, portSend_answered hs, hr]
  rfl

/-- A good send, and the retried send whatever its answer, returns. -/
theorem exec_lsSend_returns (ho : s.op = .sendOp) (hl : s.live = some c) (hs : s.script = .reply r :: rest)
    (hq : s.opstep = .tryPort ∧ r.sent = true ∨ s.opstep = .retry) :
    exec .lsSend s = .next (State.sendReturn { s with script := rest, trace := .sent c s.txf r.sent :: s.trace }) := by
  rcases hq with ⟨hq, hr⟩ | hq
  · simp only [exec, execLsSend, ho, hq, hl, portSend_answered hs, hr, if_true]
  · simp only [exec, execLsSend, ho, hq, hl, portSend_answered hs, ite_self]

theorem exec_lsRecv_unlinked (ho : s.op = .recvOp) (hq : s.opstep = .tryPort) (hl : s.link ≠ .up) :
    exec .lsRecv s = .next { s with opstep := .recClose } := by
  simp only [exec, execLsRecv, ho, hq, State.live_eq_none hl, takeException_linkRecvFailed]

theorem exec_lsRecv_err (ho : s.op = .recvOp) (hq : s.opstep = .tryPort) (hl : s.live = some c)
    (hs : s.script = .reply r :: rest) (hr : r.received = .err) :
    exec .lsRecv s =
      .next { s with opstep := .recClose, script := rest, trace := .received c s.recvTimeout .err :: s.trace } := by
  simp only [exec, execLsRecv, ho, hq, hl, portRecv_err hs hr, takeException_linkRecvFailed]

theorem exec_lsRecv_nothing (ho : s.op = .recvOp) (hq : s.opstep = .tryPort) (hl : s.live = some c)
    (hs : s.script = .reply r :: rest) (hr : r.received = .nothing) :
    exec .lsRecv s =
      .next (State.recvNone { s with script := rest, trace := .received c s.recvTimeout .nothing :: s.trace }) := by
  simp only [exec, execLsRecv, ho, hq, hl, portRecv_nothing hs hr]

/-! ### LS.RECOVER, line by line -/

/-- The three operations a recovery runs in. -/
theorem State.op_of_recoverable (h : s.recoverable = true) : s.op = .openOp ∨ s.op = .sendOp ∨ s.op = .recvOp := by
  cases ho : s.op <;> simp [State.recoverable, ho] at h ⊢

theorem exec_lsRecover_unlinked (ho : s.op = .openOp ∨ s.op = .sendOp ∨ s.op = .recvOp) (hq : s.opstep = .recClose)
    (hl : s.link ≠ .up) : exec .lsRecover s = .next s.channelLost := by
  rcases ho with ho | ho | ho <;> simp only [exec, execLsRecover, ho, hq, State.live_eq_none hl]

theorem exec_lsRecover_closes (ho : s.op = .openOp ∨ s.op = .sendOp ∨ s.op = .recvOp) (hq : s.opstep = .recClose)
    (hl : s.live = some c) (hs : s.script = .reply r :: rest) :
    exec .lsRecover s = .next (State.channelLost { s with script := rest, trace := .closed c :: s.trace }) := by
  rcases ho with ho | ho | ho <;> simp only [exec, execLsRecover, ho, hq, hl, portDone_answered hs]

theorem exec_lsRecover_bringsUp (ho : s.op = .openOp ∨ s.op = .sendOp ∨ s.op = .recvOp) (hq : s.opstep = .recBringup)
    (hs : s.script = .reply r :: rest) :
    exec .lsRecover s =
      .next { s with opstep := .recOpen, script := rest, trace := .broughtUp s.cfg.bus s.cfg.bitrate :: s.trace } := by
  rcases ho with ho | ho | ho <;> simp only [exec, execLsRecover, ho, hq, portDone_answered hs]

theorem exec_lsRecover_opens (ho : s.op = .openOp ∨ s.op = .sendOp ∨ s.op = .recvOp) (hq : s.opstep = .recOpen) :
    exec .lsRecover s = portOpen s (returnFromRecovery true) (returnFromRecovery false) := by
  rcases ho with ho | ho | ho <;> simp only [exec, execLsRecover, ho, hq]

/-- Inside LS.SEND a new channel leads to the retry. -/
theorem exec_lsRecover_retries (ho : s.op = .sendOp) (hq : s.opstep = .recOpen) (hs : s.script = .reply r :: rest)
    (hr : r.opened = some c) :
    exec .lsRecover s = .next { s with
      chan := some c, link := .up, opstep := .retry, script := rest
      trace := .opened s.cfg.bus s.cfg.bitrate c :: s.trace } := by
  rw [exec_lsRecover_opens (.inr (.inl ho)) hq, portOpen_opened hs hr]
  simp only [returnFromRecovery, ho, if_true]

/-- Inside LS.SEND a failed open gives the send up. -/
theorem exec_lsRecover_givesUp (ho : s.op = .sendOp) (hq : s.opstep = .recOpen) (hs : s.script = .reply r :: rest)
    (hr : r.opened = none) :
    exec .lsRecover s =
      .next (State.sendReturn { s with script := rest, trace := .openFailed s.cfg.bus s.cfg.bitrate :: s.trace }) := by
  rw [exec_lsRecover_opens (.inr (.inl ho)) hq, portOpen_failed hs hr]
  simp only [returnFromRecovery, ho, Bool.false_eq_true, if_false]

/-- Inside LS.RECV the receive answers `None`, whatever the open gave. -/
theorem returnFromRecovery_recv (ho : s.op = .recvOp) (ok : Bool) : returnFromRecovery ok s = s.recvNone := by
  simp only [returnFromRecovery, ho]

/-! ### LS.CLOSE -/

theorem exec_lsClose_unlinked (ho : s.op = .closeOp) (hl : s.link ≠ .up) : exec .lsClose s = .next s.closeReturn := by
  simp only [exec, execLsClose, ho, State.live_eq_none hl]

theorem exec_lsClose_closes (ho : s.op = .closeOp) (hl : s.live = some c) (hs : s.script = .reply r :: rest) :
    exec .lsClose s = .next (State.closeReturn { s with script := rest, trace := .closed c :: s.trace }) := by
  simp only [exec, execLsClose, ho, hl, portDone_answered hs]

end

/-! ### The statements about one transition -/

/-- Settles O25: the call, and the first open by its answer. -/
theorem lsOpenTransitions : Obligations.LsOpenTransitions := by
  intro s
  refine ⟨fun _ ho => (exec_link_call ho).1, fun r rest _ ho hq hs => ?_⟩
  have hopen : exec .lsOpen s = portOpen s State.openReturn State.startRecovery := by simp only [exec, execLsOpen, ho, hq]
  exact ⟨fun c hr => hopen.trans (portOpen_opened hs hr _ _), fun hr => hopen.trans (portOpen_failed hs hr _ _)⟩

/-- Settles O26: the call, the send without a channel, and the send by its answer and by the phase it returns to. -/
theorem lsSendTransitions : Obligations.LsSendTransitions := by
  intro s
  refine ⟨fun _ _ ho => (exec_link_call ho).2.1, fun _ _ ho hq hl => exec_lsSend_unlinked ho hq hl,
    fun c r rest _ ho hu hc hs _ => ?_⟩
  have hl : s.live = some c := State.live_eq_some.2 ⟨hu, hc⟩
  refine ⟨fun hq hr => exec_lsSend_failed ho hq hl hs hr, fun hq => ?_⟩
  rw [exec_lsSend_returns ho hl hs hq]
  exact ⟨fun hp => congrArg _ (State.sendReturn_engine hp), fun hp => congrArg _ (State.sendReturn_handshake hp)⟩

/-- Settles O27: the calls, the receive without a channel, and the receive answered by an error or by nothing. -/
theorem pollAndReceiveTransitions : Obligations.PollAndReceiveTransitions := by
  intro s
  refine ⟨fun _ ho hq => ⟨exec_rxPoll_call ho hq, (exec_link_call ho).2.2.1⟩,
    fun _ _ ho hq hl => exec_lsRecv_unlinked ho hq hl, fun c r rest t _ ho hq hu hc hs ht => ?_⟩
  have hl : s.live = some c := State.live_eq_some.2 ⟨hu, hc⟩
  rw [← State.recvTimeout_eq ht]
  refine ⟨fun hr => exec_lsRecv_err ho hq hl hs hr, fun hr hp => ?_⟩
  exact (exec_lsRecv_nothing ho hq hl hs hr).trans (congrArg _ (State.recvNone_handshake hp))

/-- Settles O32: the first two lines of LS.RECOVER, the same inside each operation. -/
theorem lsRecoverClosesAndBringsUp : Obligations.LsRecoverClosesAndBringsUp := by
  intro s hr
  have ho := State.op_of_recoverable hr
  refine ⟨fun hq hl => exec_lsRecover_unlinked ho hq hl, fun r rest hs => ⟨fun c hq hu hc => ?_, fun hq => ?_⟩⟩
  · exact exec_lsRecover_closes ho hq (State.live_eq_some.2 ⟨hu, hc⟩) hs
  · exact exec_lsRecover_bringsUp ho hq hs

/-- Settles O34: a new channel leads to the retry; without one the send returns to its phase. -/
theorem recoveryInsideSend : Obligations.RecoveryInsideSend := by
  intro s r rest _ _ ho hq hs
  refine ⟨fun c hr => exec_lsRecover_retries ho hq hs hr, fun hr hp => ?_, fun hr hp => ?_⟩
  · exact (exec_lsRecover_givesUp ho hq hs hr).trans (congrArg _ (State.sendReturn_engine hp))
  · exact (exec_lsRecover_givesUp ho hq hs hr).trans (congrArg _ (State.sendReturn_handshake hp))

/-- Settles O35: with or without a channel gained, what follows is what follows a receive that got nothing. -/
theorem recoveryInsideRecv : Obligations.RecoveryInsideRecv := by
  intro s r rest _ ho hq hs
  have hopens := exec_lsRecover_opens (.inr (.inr ho)) hq
  cases hr : r.opened with
  | none =>
    rw [portOpen_failed hs hr, returnFromRecovery_recv (by exact ho)] at hopens
    exact State.recvNone_outcomes hopens
  | some c =>
    rw [portOpen_opened hs hr, returnFromRecovery_recv (by exact ho)] at hopens
    exact State.recvNone_outcomes hopens

/-- Settles O36: the call, and the close with and without a channel, by the place it returns to. -/
theorem lsCloseReleases : Obligations.LsCloseReleases := by
  intro s
  refine ⟨fun _ _ ho => (exec_link_call ho).2.2.2, fun ho _ => ⟨fun hl => ?unlinked, fun c r rest hu hc hs => ?linked⟩⟩
  case unlinked =>
    obtain ⟨hexit, hboundary⟩ := State.closeReturn_outcomes (exec_lsClose_unlinked ho hl)
    exact ⟨hexit, fun _ => hboundary⟩
  case linked =>
    obtain ⟨hexit, hboundary⟩ := State.closeReturn_outcomes (exec_lsClose_closes ho (State.live_eq_some.2 ⟨hu, hc⟩) hs)
    exact ⟨hexit, fun _ => hboundary⟩

/-! ### A send in progress, step by step -/

theorem run_succ {n : Nat} {s t : State} (h : step s = .next t) : run (n + 1) s = run n t := by
  simp only [run, h]

/-- LS.SEND is in progress, at a send of a phase that sends and receives. -/
structure State.Sending (s : State) : Prop where
  phase : s.phase.exchanging = true
  pstep : s.pstep = .send
  op : s.op = .sendOp

section
variable {s : State} {c : Handle} {r : Reply} {rest : List Turn}

theorem State.Sending.selected (h : s.Sending) : s.selected = s.linkSelection false := by
  have hop : s.op ≠ .noOp := by simp [h.op]
  have hlink (b : Bool) : s.linkSelection b = s.linkSelection false := by simp only [State.linkSelection, h.op]
  rcases Phase.exchanging_iff.1 h.phase with hp | hp | hp
  · rw [State.selected_sendingDigest hp, if_neg hop, hlink]
  · rw [State.selected_sendingLength hp, if_neg hop, hlink]
  · rw [State.selected_transfer hp, if_neg hop, hlink]

/-- On the answer to its outstanding request a send in progress runs the operation its OPSTEP selects. -/
theorem step_sending (h : s.Sending) (hreq : s.atRequest = true) (hs : s.script = .reply r :: rest) {i : Instr}
    (hi : s.linkSelection false = .ok i) : step s = exec i s := by
  have hrun : s.phase.atRest = false := by
    rcases Phase.exchanging_iff.1 h.phase with hp | hp | hp <;> rw [hp] <;> rfl
  have hrecv : s.receiving = false := by simp [State.receiving, h.op]
  have hfetch : s.blockFetch = .ok i := by
    rw [State.blockFetch_selected (by simp [hrecv]), h.selected, hi]
  exact step_reply_settled (by simp [State.computing, hreq]) hrun hs hfetch

theorem step_sending_lsSend (h : s.Sending) (hq : s.opstep = .tryPort ∨ s.opstep = .retry) (hl : s.live = some c)
    (hs : s.script = .reply r :: rest) : step s = exec .lsSend s := by
  rcases hq with hq | hq <;>
    exact step_sending h (by simp [State.atRequest, h.op, hq, hl]) hs (by simp [State.linkSelection, h.op, h.pstep, hq])

theorem step_sending_lsRecover (h : s.Sending)
    (hq : s.opstep = .recClose ∧ s.live = some c ∨ s.opstep = .recBringup ∨ s.opstep = .recOpen)
    (hs : s.script = .reply r :: rest) : step s = exec .lsRecover s := by
  rcases hq with ⟨hq, hl⟩ | hq | hq
  · exact step_sending h (by simp [State.atRequest, h.op, hq, hl]) hs (by simp [State.linkSelection, h.op, h.pstep, hq])
  all_goals exact step_sending h (by simp [State.atRequest, h.op, hq]) hs (by simp [State.linkSelection, h.op, h.pstep, hq])

/-! The five steps of a send that fails, recovers and is retried, each on the answer to its request. -/

theorem step_send_fails (h : s.Sending) (hq : s.opstep = .tryPort) (hl : s.live = some c) (hs : s.script = .reply r :: rest)
    (hr : r.sent = false) :
    step s = .next { s with opstep := .recClose, script := rest, trace := .sent c s.txf false :: s.trace } :=
  (step_sending_lsSend h (.inl hq) hl hs).trans (exec_lsSend_failed h.op hq hl hs hr)

theorem step_send_closes (h : s.Sending) (hq : s.opstep = .recClose) (hl : s.live = some c) (hs : s.script = .reply r :: rest) :
    step s = .next (State.channelLost { s with script := rest, trace := .closed c :: s.trace }) :=
  (step_sending_lsRecover h (.inl ⟨hq, hl⟩) hs).trans (exec_lsRecover_closes (.inr (.inl h.op)) hq hl hs)

theorem step_send_bringsUp (h : s.Sending) (hq : s.opstep = .recBringup) (hs : s.script = .reply r :: rest) :
    step s = .next { s with opstep := .recOpen, script := rest, trace := .broughtUp s.cfg.bus s.cfg.bitrate :: s.trace } :=
  (step_sending_lsRecover (c := { token := 0 }) h (.inr (.inl hq)) hs).trans (exec_lsRecover_bringsUp (.inr (.inl h.op)) hq hs)

theorem step_send_reopens (h : s.Sending) (hq : s.opstep = .recOpen) (hs : s.script = .reply r :: rest) (hr : r.opened = some c) :
    step s = .next { s with
      chan := some c, link := .up, opstep := .retry, script := rest
      trace := .opened s.cfg.bus s.cfg.bitrate c :: s.trace } :=
  (step_sending_lsRecover (c := c) h (.inr (.inr hq)) hs).trans (exec_lsRecover_retries h.op hq hs hr)

theorem step_send_retries (h : s.Sending) (hq : s.opstep = .retry) (hl : s.live = some c) (hs : s.script = .reply r :: rest) :
    step s = .next (State.sendReturn { s with script := rest, trace := .sent c s.txf r.sent :: s.trace }) :=
  (step_sending_lsSend h (.inr hq) hl hs).trans (exec_lsSend_returns h.op hl hs (.inr hq))

/-- A whole recovery inside LS.SEND, from the close of the lost channel to the new one. -/
theorem run_send_recovers {d : Handle} {r1 r2 r3 : Reply} (n : Nat) (h : s.Sending) (hq : s.opstep = .recClose)
    (hl : s.live = some c) (hs : s.script = .reply r1 :: .reply r2 :: .reply r3 :: rest) (hopen : r3.opened = some d) :
    run (n + 3) s = run n { s with
      chan := some d, link := .up, opstep := .retry, script := rest
      trace := .opened s.cfg.bus s.cfg.bitrate d :: .broughtUp s.cfg.bus s.cfg.bitrate :: .closed c :: s.trace } := by
  refine Eq.trans (run_succ (step_send_closes h hq hl hs)) ?_
  refine Eq.trans (run_succ (step_send_bringsUp ⟨h.phase, h.pstep, h.op⟩ rfl rfl)) ?_
  exact run_succ (step_send_reopens ⟨h.phase, h.pstep, h.op⟩ rfl rfl hopen)

end

/-- Settles O38: the failed send, the recovery and the retry. No line before the return writes TXF, ERR or PHASE, and the return
keeps them. -/
theorem failedSendIsRetriedOnce : Obligations.FailedSendIsRetriedOnce := by
  intro s c d r1 r2 r3 r4 r5 rest hp hsend ho hq hu hc hs hfail hopen
  have hl : s.live = some c := State.live_eq_some.2 ⟨hu, hc⟩
  have hfails := run_succ (n := 4) (step_send_fails ⟨hp, hsend, ho⟩ hq hl hs hfail)
  have hrecovers := hfails.trans (run_send_recovers 1 ⟨hp, hsend, ho⟩ rfl hl rfl hopen)
  refine ⟨_, hrecovers.trans (run_succ (step_send_retries ⟨hp, hsend, ho⟩ rfl rfl rfl)), ?_⟩
  rw [State.sendReturn_frame]
  exact ⟨rfl, rfl, rfl, rfl, rfl, rfl, rfl, rfl⟩

end Sys2Proof.Machine
end

section
/-!
PROOFS. The handshake: a received PROGRESS, the two rounds and their evaluations, and a whole digest round (O28, O39, O40, O41).
-/
namespace Sys2Proof.Machine

/-! ### A received frame -/

/-- The channel of the outstanding receive is the one CHAN holds. -/
theorem State.live_of_receiving {s : State} {c : Handle} (h : s.receiving = true) (hc : s.chan = some c) : s.live = some c := by
  obtain ⟨-, -, -, -, d, hd⟩ := State.receiving_iff.1 h
  exact State.live_eq_some.2 ⟨(State.live_eq_some.1 hd).1, hc⟩

/-- A frame that answers the outstanding receive is accepted and its answer taken off the script. -/
theorem receiveFrame_answered {s : State} {c : Handle} {r : Reply} {rest : List Turn} (h : s.receiving = true)
    (hc : s.chan = some c) (hs : s.script = .reply r :: rest) (m : Message) :
    receiveFrame m s = .next (State.accept c m { s with script := rest }) := by
  simp only [receiveFrame, h, if_true, State.live_of_receiving h hc, State.dropReply_reply hs]

section
variable {s : State} (rd rl wr : Bool) (idx : BitVec 32)

/-- consume_hs (R172). -/
theorem State.consume_progress_handshake (hp : s.phase = .sendingDigest ∨ s.phase = .sendingLength) :
    s.consume (.progress rd rl wr idx) = { s with fresh := { valid := true, rd := rd, rl := rl, wr := wr, idx := idx } } := by
  rcases hp with hp | hp <;> simp only [State.consume, hp]

/-- consume_bte (R193). -/
theorem State.consume_progress_engine (hp : s.phase = .transfer) :
    s.consume (.progress rd rl wr idx) = { s with cursor := cursorUpdate s.cursor wr idx } := by
  simp only [State.consume, hp]

end

/-- Settles O28: the frame is accepted, and the phase's consume action applies it. -/
theorem receivedProgressIsConsumed : Obligations.ReceivedProgressIsConsumed := by
  intro s c r rest rd rl wr idx hrecv hc hs
  have haccept := receiveFrame_answered hrecv hc hs (.progress rd rl wr idx)
  refine ⟨fun hp => ?handshake, fun hp => ⟨cursorUpdate s.cursor wr idx, ?engine, toInt_cursorUpdate s.cursor wr idx⟩⟩
  case handshake => exact haccept.trans (congrArg _ (State.consume_progress_handshake rd rl wr idx hp))
  case engine => exact haccept.trans (congrArg _ (State.consume_progress_engine rd rl wr idx hp))

/-! ### HS.EVAL -/

section
variable {s : State}

theorem exec_hsEvalDigest_eval (hp : s.phase = .sendingDigest) (ho : s.op = .noOp) (hq : s.pstep = .eval) :
    exec .hsEvalDigest s =
      .next (if s.digestSeen then { s with digestOk := true, phase := .digestConfirmed } else { s with pstep := .boundary }) := by
  simp only [exec, execHsEvalDigest, hp, ho, hq]
  split <;> rfl

theorem exec_hsEvalDigest_confirmed (hp : s.phase = .digestConfirmed) (ho : s.op = .noOp) :
    exec .hsEvalDigest s = .next { s with phase := .sendingLength, pstep := .boundary } := by
  simp only [exec, execHsEvalDigest, hp, ho]

theorem exec_hsEvalLength_eval (hp : s.phase = .sendingLength) (ho : s.op = .noOp) (hq : s.pstep = .eval) :
    exec .hsEvalLength s =
      .next (if s.lengthSeen then { s with lengthOk := true, phase := .lengthConfirmed } else { s with pstep := .boundary }) := by
  simp only [exec, execHsEvalLength, hp, ho, hq]
  split <;> rfl

theorem State.digestSeen_iff : s.digestSeen = true ↔ s.fresh.valid = true ∧ s.fresh.rd = true := by
  simp only [State.digestSeen, Bool.and_eq_true]

theorem State.lengthSeen_iff : s.lengthSeen = true ↔ s.fresh.valid = true ∧ s.fresh.rl = true := by
  simp only [State.lengthSeen, Bool.and_eq_true]

end

/-- Settles O41: each evaluation is one test of FRESH. -/
theorem handshakeEvaluations : Obligations.HandshakeEvaluations := by
  intro s ho
  refine ⟨fun hp hq => ?digest, fun hp => exec_hsEvalDigest_confirmed hp ho, fun hp hq => ?length⟩
  case digest =>
    rw [exec_hsEvalDigest_eval hp ho hq, ← State.digestSeen_iff]
    exact ⟨fun h => by rw [if_pos h], fun h => by rw [if_neg h]⟩
  case length =>
    rw [exec_hsEvalLength_eval hp ho hq, ← State.lengthSeen_iff]
    exact ⟨fun h => by rw [if_pos h], fun h => by rw [if_neg h]⟩

/-! ### The rounds, line by line (R176) -/

theorem DigestRegs.chunk_eq_at (d : DigestRegs) (k : Fin 4) : d.chunk k.val = some (d.at k) := by
  fin_cases k <;> rfl

/-- The INFO.DIG frame of chunk k. -/
def State.chunkFrame (s : State) (k : Fin 4) : Frame :=
  encodeInfoDig s.cfg.baseId (BitVec.ofNat 8 k.val) (s.digest.at k)

theorem State.digestFrame_eq {s : State} {k : Fin 4} (hk : s.hsK.toNat = k.val) : s.digestFrame = some (s.chunkFrame k) := by
  rw [State.digestFrame, State.chunkFrame, hk, DigestRegs.chunk_eq_at, ← hk, BitVec.ofNat_toNat]
  rfl

theorem State.digestGapDone_next {s : State} (hk : s.hsK.toNat < 3) :
    s.digestGapDone = { s with hsK := s.hsK + 1, pstep := .send } := if_pos hk

theorem State.digestGapDone_last {s : State} (hk : s.hsK.toNat = 3) :
    s.digestGapDone = { s with hsK := 4, fresh := { s.fresh with valid := false }, pstep := .rxTimed } :=
  if_neg (by omega)

section
variable {s : State} {r : Reply} {rest : List Turn}

theorem exec_hsDigestRound_begins (hp : s.phase = .sendingDigest) (ho : s.op = .noOp) (hq : s.pstep = .boundary)
    (ha : s.abortReq = false) : exec .hsDigestRound s = .next { s with hsK := 0, pstep := .send } := by
  simp only [exec, execHsDigestRound, hp, ho, hq, ha, Bool.false_eq_true, if_false]

theorem exec_hsDigestRound_aborts (hp : s.phase = .sendingDigest) (ho : s.op = .noOp) (hq : s.pstep = .boundary)
    (ha : s.abortReq = true) : exec .hsDigestRound s = .next (s.call .closeOp) := by
  simp only [exec, execHsDigestRound, hp, ho, hq, ha, if_true]

theorem exec_hsDigestRound_sends (hp : s.phase = .sendingDigest) (ho : s.op = .noOp) (hq : s.pstep = .send) {k : Fin 4}
    (hk : s.hsK.toNat = k.val) : exec .hsDigestRound s = .next (State.call .sendOp { s with txf := s.chunkFrame k }) := by
  simp only [exec, execHsDigestRound, hp, ho, hq, State.digestFrame_eq hk]

theorem exec_hsDigestRound_delays (hp : s.phase = .sendingDigest) (ho : s.op = .noOp) (hq : s.pstep = .gap)
    (hs : s.script = .reply r :: rest) :
    exec .hsDigestRound s =
      .next (State.digestGapDone { s with script := rest, trace := .delayed s.cfg.tDigestGap :: s.trace }) := by
  simp only [exec, execHsDigestRound, hp, ho, hq, portDone_answered hs]

theorem exec_hsDigestRound_receives (hp : s.phase = .sendingDigest) (ho : s.op = .noOp)
    (hq : s.pstep = .rxTimed ∨ s.pstep = .rxDrain) : exec .hsDigestRound s = .next (s.call .recvOp) := by
  rcases hq with hq | hq <;> simp only [exec, execHsDigestRound, hp, ho, hq]

theorem exec_hsLengthRound_begins (hp : s.phase = .sendingLength) (ho : s.op = .noOp) (hq : s.pstep = .boundary)
    (ha : s.abortReq = false) : exec .hsLengthRound s = .next { s with pstep := .send } := by
  simp only [exec, execHsLengthRound, hp, ho, hq, ha, Bool.false_eq_true, if_false]

theorem exec_hsLengthRound_aborts (hp : s.phase = .sendingLength) (ho : s.op = .noOp) (hq : s.pstep = .boundary)
    (ha : s.abortReq = true) : exec .hsLengthRound s = .next (s.call .closeOp) := by
  simp only [exec, execHsLengthRound, hp, ho, hq, ha, if_true]

theorem exec_hsLengthRound_sends (hp : s.phase = .sendingLength) (ho : s.op = .noOp) (hq : s.pstep = .send) :
    exec .hsLengthRound s = .next (State.call .sendOp { s with txf := encodeInfoLen s.cfg.baseId s.imgLen }) := by
  simp only [exec, execHsLengthRound, hp, ho, hq]

theorem exec_hsLengthRound_delays (hp : s.phase = .sendingLength) (ho : s.op = .noOp) (hq : s.pstep = .gap)
    (hs : s.script = .reply r :: rest) :
    exec .hsLengthRound s =
      .next (State.lengthGapDone { s with script := rest, trace := .delayed s.cfg.tLengthGap :: s.trace }) := by
  simp only [exec, execHsLengthRound, hp, ho, hq, portDone_answered hs]

theorem exec_hsLengthRound_receives (hp : s.phase = .sendingLength) (ho : s.op = .noOp)
    (hq : s.pstep = .rxTimed ∨ s.pstep = .rxDrain) : exec .hsLengthRound s = .next (s.call .recvOp) := by
  rcases hq with hq | hq <;> simp only [exec, execHsLengthRound, hp, ho, hq]

end

/-- Settles O39, line by line of both rounds. -/
theorem handshakeRoundTransitions : Obligations.HandshakeRoundTransitions := by
  intro s ho
  refine ⟨fun hp => ?digest, fun hp => ?length⟩
  case digest =>
    refine ⟨exec_hsDigestRound_begins hp ho, exec_hsDigestRound_aborts hp ho,
      fun k hq hk => exec_hsDigestRound_sends hp ho hq hk, fun r rest hq hs => ?gap, exec_hsDigestRound_receives hp ho⟩
    rw [exec_hsDigestRound_delays hp ho hq hs]
    exact ⟨fun hk => congrArg _ (State.digestGapDone_next hk), fun hk => congrArg _ (State.digestGapDone_last hk)⟩
  case length =>
    exact ⟨exec_hsLengthRound_begins hp ho, exec_hsLengthRound_aborts hp ho, exec_hsLengthRound_sends hp ho,
      fun r rest hq hs => exec_hsLengthRound_delays hp ho hq hs, exec_hsLengthRound_receives hp ho⟩

/-! ### A digest round, step by step -/

section
variable {s : State} {c : Handle} {k : Fin 4} {r r' : Reply} {rest : List Turn}

/-- With an answer at hand, a line of internal computation is no step of its own (R13). -/
theorem step_after_line {t : State} {i : Instr} (hc : s.computing = true) (hi : s.selected = .ok i) (he : exec i s = .next t)
    (hs : s.script = .reply r :: rest) : step s = step t := by
  have hout := (computing_exec hc (State.selects_of_selected hi) he).1
  have hscript : t.script = .reply r :: rest := by rw [hout]; exact hs
  rw [step_reply hs, State.settle_line hc hi, he, step_reply hscript]
  rfl

theorem run_congr {n : Nat} {t : State} (h : step s = step t) : run (n + 1) s = run (n + 1) t := by
  simp only [run, h]

/-- A digest round on the held channel `c`, between two operations of the link supervisor. -/
structure State.InDigestRound (s : State) (c : Handle) : Prop where
  phase : s.phase = .sendingDigest
  op : s.op = .noOp
  live : s.live = some c

/-- At its boundary and at its sends the round computes. -/
theorem State.InDigestRound.computing (h : s.InDigestRound c) (hq : s.pstep = .boundary ∨ s.pstep = .send) :
    s.computing = true := by
  rcases hq with hq | hq <;>
    simp [State.computing, State.atRequest, State.atEmit, Phase.atRest, h.phase, h.op, hq]

theorem State.InDigestRound.selected (h : s.InDigestRound c)
    (hq : s.pstep = .boundary ∧ s.abortReq = false ∨ s.pstep = .send ∨ s.pstep = .gap) : s.selected = .ok .hsDigestRound := by
  rw [State.selected_sendingDigest h.phase, if_pos h.op]
  rcases hq with ⟨hq, ha⟩ | hq | hq
  · simp [hq, ha]
  all_goals simp only [hq]

/-- The first send belongs to the step that leaves the boundary. -/
theorem step_digest_begins (h : s.InDigestRound c) (hq : s.pstep = .boundary) (ha : s.abortReq = false)
    (hs : s.script = .reply r :: rest) : step s = step { s with hsK := 0, pstep := .send } :=
  step_after_line (h.computing (.inl hq)) (h.selected (.inl ⟨hq, ha⟩)) (exec_hsDigestRound_begins h.phase h.op hq ha) hs

/-- The call that sends chunk k, its frame encoded in TXF. -/
def State.callChunk (s : State) (k : Fin 4) : State := State.call .sendOp { s with txf := s.chunkFrame k }

/-- A good send of chunk HS_K, its frame encoded in the same step. -/
theorem step_digest_sends (h : s.InDigestRound c) (hq : s.pstep = .send) (hk : s.hsK.toNat = k.val)
    (hs : s.script = .reply r :: rest) (hr : r.sent = true) :
    step s = .next { s with
      txf := s.chunkFrame k, op := .noOp, opstep := .tryPort, pstep := .gap, script := rest
      trace := .sent c (s.chunkFrame k) true :: s.trace } := by
  have hcalled : (s.callChunk k).Sending := ⟨by rw [State.callChunk, State.call_phase, h.phase]; rfl, hq, rfl⟩
  have hsent := exec_lsSend_returns (s := s.callChunk k) rfl h.live hs (.inl ⟨rfl, hr⟩)
  rw [hr] at hsent
  calc step s
      = step (s.callChunk k) := step_after_line (h.computing (.inr hq)) (h.selected (.inr (.inl hq)))
          (exec_hsDigestRound_sends h.phase h.op hq hk) hs
    _ = exec .lsSend (s.callChunk k) := step_sending_lsSend hcalled (.inl rfl) h.live hs
    _ = _ := hsent.trans (congrArg _ (State.sendReturn_handshake (.inl h.phase)))

/-- The gap after a chunk. -/
theorem step_digest_delays (h : s.InDigestRound c) (hq : s.pstep = .gap) (hs : s.script = .reply r :: rest) :
    step s = .next (State.digestGapDone { s with script := rest, trace := .delayed s.cfg.tDigestGap :: s.trace }) := by
  have hsettled : s.computing = false := by simp [State.computing, State.atRequest, h.phase, h.op, hq]
  have hrecv : s.receiving = false := by simp [State.receiving, h.op]
  have hfetch : s.blockFetch = .ok .hsDigestRound := by
    rw [State.blockFetch_selected (by simp [hrecv]), h.selected (.inr (.inr hq))]
  exact (step_reply_settled hsettled (by rw [h.phase]; rfl) hs hfetch).trans (exec_hsDigestRound_delays h.phase h.op hq hs)

/-- The state with chunk k sent and its gap over, two answers taken off the script, before HS_K moves on. -/
def State.chunkSent (s : State) (c : Handle) (k : Fin 4) (rest : List Turn) : State :=
  { s with
    txf := s.chunkFrame k, op := .noOp, opstep := .tryPort, pstep := .gap, script := rest
    trace := .delayed s.cfg.tDigestGap :: .sent c (s.chunkFrame k) true :: s.trace }

/-- One chunk is two steps: its send and its gap. -/
theorem run_digest_chunk (n : Nat) (h : s.InDigestRound c) (hq : s.pstep = .send) (hk : s.hsK.toNat = k.val)
    (hs : s.script = .reply r :: .reply r' :: rest) (hr : r.sent = true) :
    run (n + 2) s = run n (s.chunkSent c k rest).digestGapDone :=
  (run_succ (step_digest_sends h hq hk hs hr)).trans (run_succ (step_digest_delays ⟨h.phase, rfl, h.live⟩ rfl rfl))

/-- The state at the send of the chunk after chunk k. -/
def State.nextChunk (s : State) (c : Handle) (k : Fin 4) (rest : List Turn) : State :=
  { s.chunkSent c k rest with hsK := s.hsK + 1, pstep := .send }

/-- After each of the first three chunks the round is at the send of the next. -/
theorem run_digest_next (n : Nat) (h : s.InDigestRound c) (hq : s.pstep = .send) (hk : s.hsK.toNat = k.val) (h3 : k < 3)
    (hs : s.script = .reply r :: .reply r' :: rest) (hr : r.sent = true) :
    run (n + 2) s = run n (s.nextChunk c k rest) ∧ (s.nextChunk c k rest).InDigestRound c := by
  have hlt : (s.chunkSent c k rest).hsK.toNat < 3 := hk.trans_lt h3
  exact ⟨(run_digest_chunk n h hq hk hs hr).trans (congrArg (run n) (State.digestGapDone_next hlt)), h.phase, rfl, h.live⟩

end

/-- Settles O40: the four chunks, HS_K counting them from 0. -/
theorem digestRoundSendsFourChunks : Obligations.DigestRoundSendsFourChunks := by
  intro s c r1 r2 r3 r4 r5 r6 r7 r8 rest hp hq ho ha hu hc hs h1 h3 h5 h7
  have hround : s.InDigestRound c := ⟨hp, ho, State.live_eq_some.2 ⟨hu, hc⟩⟩
  have hbegin : run 8 s = run 8 { s with hsK := 0, pstep := .send } := run_congr (step_digest_begins hround hq ha hs)
  obtain ⟨hrun0, hround1⟩ := run_digest_next (s := { s with hsK := 0, pstep := .send }) (k := 0) 6
    ⟨hp, ho, hround.live⟩ rfl rfl (by decide) hs h1
  obtain ⟨hrun1, hround2⟩ := run_digest_next (k := 1) 4 hround1 rfl rfl (by decide) rfl h3
  obtain ⟨hrun2, hround3⟩ := run_digest_next (k := 2) 2 hround2 rfl rfl (by decide) rfl h5
  have hrun3 := run_digest_chunk (k := 3) 0 hround3 rfl rfl rfl h7
  refine ⟨_, hbegin.trans (hrun0.trans (hrun1.trans (hrun2.trans hrun3))), ?_⟩
  rw [State.digestGapDone_last rfl]
  exact ⟨hp, rfl, rfl, rfl, rfl, rfl, rfl⟩

end Sys2Proof.Machine
end

section
/-!
PROOFS. The cursor reducer, and the engine line by line: its entry, boundary, window, slots and exits
(O18, O19, O31, O42, O43, O44, O46).
-/
namespace Sys2Proof.Machine

/-! ### The cursor reducer -/

/-- Settles O18: the reducer is the signed maximum, and it only returns. -/
theorem cursorUpdateIsSignedMax : Obligations.CursorUpdateIsSignedMax := by
  intro s cur wr idx _
  exact ⟨cursorUpdate cur wr idx, rfl, toInt_cursorUpdate cur wr idx⟩

/-- As integers the reports are taken into one running maximum. -/
theorem toInt_cursorAfter (cur : Signed33) (reports : List (Bool × BitVec 32)) :
    (cursorAfter cur reports).toInt = (reports.map fun r => reportedIndex r.1 r.2).foldl max cur.toInt := by
  induction reports generalizing cur with
  | nil => rfl
  | cons r reports ih =>
    rw [List.map_cons, List.foldl_cons, ← toInt_cursorUpdate]
    exact ih (cursorUpdate cur r.1 r.2)

theorem le_cursorAfter (cur : Signed33) (reports : List (Bool × BitVec 32)) : cur.toInt ≤ (cursorAfter cur reports).toInt := by
  induction reports generalizing cur with
  | nil => exact le_refl _
  | cons r reports ih => exact (le_cursorUpdate cur r.1 r.2).trans (ih _)

theorem reportedIndex_le_cursorAfter (cur : Signed33) {reports : List (Bool × BitVec 32)} {r : Bool × BitVec 32}
    (h : r ∈ reports) : reportedIndex r.1 r.2 ≤ (cursorAfter cur reports).toInt := by
  induction reports generalizing cur with
  | nil => cases h
  | cons x reports ih =>
    rcases List.mem_cons.1 h with rfl | h
    · have hupdate : reportedIndex r.1 r.2 ≤ (cursorUpdate cur r.1 r.2).toInt := by
        rw [toInt_cursorUpdate]
        exact le_max_right _ _
      exact hupdate.trans (le_cursorAfter _ reports)
    · exact ih _ h

/-- The maximum does not see the order of the reports. -/
theorem cursorAfter_perm (cur : Signed33) {reports shuffled : List (Bool × BitVec 32)} (h : reports.Perm shuffled) :
    cursorAfter cur reports = cursorAfter cur shuffled := by
  apply BitVec.eq_of_toInt_eq
  rw [toInt_cursorAfter, toInt_cursorAfter]
  exact (h.map _).foldl_op_eq

/-- Settles O19, from the running maximum. -/
theorem cursorAfterReports : Obligations.CursorAfterReports := by
  intro cur reports _
  exact ⟨toInt_cursorAfter cur reports, le_cursorAfter cur reports, fun r hr => reportedIndex_le_cursorAfter cur hr,
    fun shuffled h => cursorAfter_perm cur h⟩

/-! ### The entry and the slots -/

/-- Settles O42: BTE.ENTER's one line. -/
theorem engineEntry : Obligations.EngineEntry := by
  intro s hp ho
  simp only [exec, execBteEnter, hp, ho]
  rfl

/-- Settles O31: LS.RECV answers `None`, and the engine goes on from the slot it is at. -/
theorem slotAfterPoll : Obligations.SlotAfterPoll := by
  intro s c r rest hp hrecv hc hs hr
  obtain ⟨-, ho, hq, -, -⟩ := State.receiving_iff.1 hrecv
  exact (State.recvNone_outcomes (exec_lsRecv_nothing ho hq (State.live_of_receiving hrecv hc) hs hr)).2 hp

/-! ### The boundary (R191) -/

section
variable {s : State}

theorem State.complete_iff : s.complete = true ↔ s.cursor.toInt = (s.blockcount.toNat : Int) - 1 := by
  simp only [State.complete, decide_eq_true_eq]

theorem State.flushDue_eq_false (h : s.cursor.toInt ≤ s.lastrep.toInt) : s.flushDue = false := by
  simp only [State.flushDue, decide_eq_false_iff_not]
  omega

/-- The operation R191 gives an engine boundary to. -/
def State.boundaryOperation (s : State) : Instr :=
  if s.cursor.toInt = (s.blockcount.toNat : Int) - 1 then .bteExit else if s.abortReq = true then .abortExit else .bteWindow

theorem State.selected_boundary (hp : s.phase = .transfer) (ho : s.op = .noOp) (hq : s.pstep = .boundary) :
    s.selected = .ok s.boundaryOperation := by
  rw [State.selected_transfer hp, if_pos ho]
  simp only [hq, State.complete_iff, State.boundaryOperation, apply_ite (Except.ok (ε := Reject))]

theorem State.computing_boundary (hp : s.phase = .transfer) (ho : s.op = .noOp) (hq : s.pstep = .boundary) :
    s.computing = true := by
  simp [State.computing, State.atRequest, State.atEmit, Phase.atRest, hp, ho, hq]

/-- On an answer or in silence a line of internal computation is no step of its own (R13). -/
theorem step_line {t : State} {i : Instr} (hc : s.computing = true) (hi : s.selected = .ok i) (he : exec i s = .next t)
    (hb : s.blockNext) (ht : ∀ rest, s.script ≠ .tick :: rest) : step s = step t := by
  have hout := (computing_exec hc (State.selects_of_selected hi) he).1
  have hscript : t.script = s.script := by rw [hout]
  have hloop : t.loop = s.loop := by rw [hout]
  rcases s.blockNext_cases hb with ⟨rest, hs⟩ | ⟨r, rest, hs⟩ | ⟨hs, hl⟩
  · exact absurd hs (ht rest)
  · exact step_after_line hc hi he hs
  · rw [step_silent hs hl, step_silent (hscript.trans hs) (hloop.trans hl), State.settle_line hc hi, he]
    rfl

end

/-- Settles O43: the boundary selects the operation, and executing it is the first line of the computation. -/
theorem engineBoundaryOrder : Obligations.EngineBoundaryOrder := by
  intro s hp ho hq
  have hcomputing := State.computing_boundary hp ho hq
  have hselected := State.selected_boundary hp ho hq
  refine ⟨hcomputing, hselected, fun t he => ⟨?settle, step_line hcomputing hselected he⟩⟩
  case settle =>
    rw [State.settle_line hcomputing hselected]
    exact congrArg (andThen · (State.settle settleSteps)) he

/-! ### The window (R192) -/

section
variable {s : State}

/-- The first slot's candidate is the block after the cursor. -/
theorem State.sendable_first :
    State.sendable { s with wbase := s.cursor, wsent := false, wSlot := 0 } = true ↔
      s.cursor.toInt + 1 < s.blockcount.toNat := by
  simp [State.sendable, State.candidate]

/-- A window begins at its first slot if the block after the cursor is one of the image. -/
theorem exec_bteWindow_opens (hp : s.phase = .transfer) (ho : s.op = .noOp) (hq : s.pstep = .boundary) (hw : s.cfg.window ≠ 0)
    (hc : s.cursor.toInt + 1 < s.blockcount.toNat) :
    exec .bteWindow s = .next { s with wbase := s.cursor, wsent := false, wSlot := 0, pstep := .send } := by
  rw [(exec_engine_boundary hp ho hq).2.1, State.seekSlot]
  have hwindow : 0 < s.cfg.window.toNat := Nat.pos_of_ne_zero fun h => hw (BitVec.eq_of_toNat_eq h)
  rw [if_pos ⟨hwindow, State.sendable_first.2 hc⟩]

/-- Past the last block nothing is sent, and the extra receive follows. -/
theorem exec_bteWindow_overrun (hp : s.phase = .transfer) (ho : s.op = .noOp) (hq : s.pstep = .boundary)
    (hc : s.blockcount.toNat ≤ s.cursor.toInt + 1) :
    exec .bteWindow s =
      .next { s with wbase := s.cursor, wsent := false, wSlot := s.cfg.window, pstep := .rxTimed } := by
  rw [(exec_engine_boundary hp ho hq).2.1, State.seekSlot]
  rw [if_neg fun h => (State.sendable_first.1 h.2).not_ge hc]
  rfl

theorem fetchBlock_of_exec_blkFetch {i : BitVec 32} {d : Block} (h : exec (.blkFetch i) s = .next { s with ret := .block d }) :
    s.fetchBlock i.toNat = some d := by
  cases hd : s.fetchBlock i.toNat with
  | none => simp only [exec, execBlkFetch, hd, reduceCtorEq] at h
  | some e => simpa [exec, execBlkFetch, returnValue, hd] using h

theorem encodeData_of_exec_encData {i : BitVec 32} {d : Block} {f : Frame}
    (h : exec (.encData i d) s = .next { s with ret := .frame f }) :
    i.toNat < 2 ^ 26 ∧ encodeData s.cfg.baseId (i.setWidth 26) d = f := by
  by_cases hi : i.toNat < 2 ^ 26
  · rw [exec, execEncData, if_pos hi] at h
    exact ⟨hi, by simpa [returnValue] using h⟩
  · rw [exec_encData_refused s d (Nat.le_of_not_lt hi)] at h
    cases h

/-- The candidate's frame is ENC.DATA of BLK.FETCH. -/
theorem State.candidateFrame_eq {i : BitVec 32} {d : Block} {f : Frame} (hi : (i.toNat : Int) = s.candidate)
    (hd : exec (.blkFetch i) s = .next { s with ret := .block d })
    (hf : exec (.encData i d) s = .next { s with ret := .frame f }) : s.candidateFrame = some f := by
  obtain ⟨hlt, henc⟩ := encodeData_of_exec_encData hf
  have hcand : s.candidate.toNat = i.toNat := by omega
  rw [State.candidateFrame, if_pos (by omega), hcand, State.dataFrame, if_pos hlt, fetchBlock_of_exec_blkFetch hd, ← henc]
  rfl

theorem exec_bteWindow_sends (hp : s.phase = .transfer) (ho : s.op = .noOp) (hq : s.pstep = .send) {f : Frame}
    (hf : s.candidateFrame = some f) : exec .bteWindow s = .next (State.call .sendOp { s with txf := f }) := by
  simp only [exec, execBteWindow, hp, ho, hq, hf]

theorem exec_bteWindow_receives (hp : s.phase = .transfer) (ho : s.op = .noOp) (hq : s.pstep = .rxTimed ∨ s.pstep = .rxDrain) :
    exec .bteWindow s = .next (s.call .recvOp) := by
  rcases hq with hq | hq <;> simp only [exec, execBteWindow, hp, ho, hq]

end

/-- Settles O44: the latch, a slot's send and the receives. -/
theorem windowTransitions : Obligations.WindowTransitions := by
  intro s hp ho
  refine ⟨fun hq hw _ _ => ⟨exec_bteWindow_opens hp ho hq hw, exec_bteWindow_overrun hp ho hq⟩, fun i d f hq hi hd hf => ?send,
    exec_bteWindow_receives hp ho⟩
  case send => exact exec_bteWindow_sends hp ho hq (State.candidateFrame_eq hi hd hf)

/-! ### The exits (R194, R238) -/

section
variable {s : State}

theorem exec_bteExit_closes (hp : s.phase = .transfer) (ho : s.op = .noOp) (hq : s.pstep = .exit) (hf : s.flushDue = false) :
    exec .bteExit s = .next (s.call .closeOp) := by
  simp only [exec, execBteExit, hp, ho, hq, hf, Bool.false_eq_true, if_false]

theorem exec_abortExit_closes (hp : s.phase.exchanging = true) (ho : s.op = .noOp) (hq : s.pstep = .boundary)
    (ha : s.abortReq = true) : exec .abortExit s = .next (s.call .closeOp) := by
  rcases Phase.exchanging_iff.1 hp with hp | hp | hp <;> simp only [exec, execAbortExit, hp, ho, hq, ha]

end

/-- Settles O46, exit by exit. -/
theorem exitTransitions : Obligations.ExitTransitions := by
  intro s ho
  exact ⟨fun hp hq _ => (exec_engine_boundary hp ho hq).1,
    fun hp hq hle => exec_bteExit_closes hp ho hq (State.flushDue_eq_false hle), fun hp hq ha _ => exec_abortExit_closes hp ho hq ha⟩

end Sys2Proof.Machine
end

section
/-!
PROOFS. Overrun: the engine with its cursor past the last block (O47).
-/
namespace Sys2Proof.Machine

/-! ### BLOCKCOUNT and CURSOR along a line -/

@[simp] theorem State.sendReturn_blockcount (s : State) : s.sendReturn.blockcount = s.blockcount := by rw [s.sendReturn_frame]

@[simp] theorem State.recvNone_blockcount (s : State) : s.recvNone.blockcount = s.blockcount := by rw [s.recvNone_frame]

@[simp] theorem State.seekSlot_blockcount (s : State) : s.seekSlot.blockcount = s.blockcount := by rw [s.seekSlot_frame]

@[simp] theorem State.digestGapDone_blockcount (s : State) : s.digestGapDone.blockcount = s.blockcount := by
  rcases s.digestGapDone_cases with ⟨-, e⟩ | ⟨-, e⟩ <;> rw [e]

@[simp] theorem State.closeReturn_blockcount (s : State) : s.closeReturn.blockcount = s.blockcount := by
  rcases s.closeReturn_cases with ⟨-, -, e⟩ | ⟨-, e⟩ <;> rw [e]

/-- A message leaves the place in the phase and the image's block count. -/
theorem State.consume_place (m : Message) (s : State) :
    (s.consume m).phase = s.phase ∧ (s.consume m).pstep = s.pstep ∧ (s.consume m).blockcount = s.blockcount := by
  rcases s.consume_cases m with ⟨_, _, _, _, -, -, e⟩ | ⟨_, _, _, _, -, -, e⟩ | e <;> rw [e] <;> exact ⟨rfl, rfl, rfl⟩

theorem State.accept_place (c : Handle) (m : Message) (s : State) :
    (s.accept c m).phase = s.phase ∧ (s.accept c m).pstep = .rxDrain ∧ (s.accept c m).blockcount = s.blockcount :=
  State.consume_place m _

/-- Only START sets BLOCKCOUNT. -/
theorem State.Line.blockcount {s t : State} (hl : s.Line t) : t.blockcount = s.blockcount := by
  cases hl with
  | received => exact (State.accept_place _ _ _).2.2
  | _ => simp

/-- Only BTE.ENTER lowers CURSOR. -/
theorem State.Line.le_cursor {s t : State} (hl : s.Line t) (hp : s.phase ≠ .lengthConfirmed) : s.cursor.toInt ≤ t.cursor.toInt := by
  rcases hl.cursor hp with e | ⟨-, -, _, _, _, _, _, wr, idx, -, -, -, e⟩ <;> rw [e]
  exact le_cursorUpdate s.cursor wr idx

/-! ### The engine's loop -/

/-- In the engine, short of its exit. -/
structure State.Looping (s : State) : Prop where
  phase : s.phase = .transfer
  pstep : s.pstep ≠ .exit

theorem State.seekSlot_looping {s : State} (hp : s.phase = .transfer) : s.seekSlot.Looping := by
  rcases s.seekSlot_cases with ⟨-, -, e⟩ | ⟨-, -, e⟩ | ⟨-, -, e⟩ <;> rw [e] <;> exact ⟨hp, by simp⟩

theorem State.recvNone_looping {s : State} (hp : s.phase = .transfer) : s.recvNone.Looping := by
  rw [State.recvNone_engine hp]
  rcases State.slotDone_cases { s with op := .noOp } with ⟨-, e⟩ | ⟨-, e⟩ <;> rw [e]
  · exact State.seekSlot_looping hp
  · exact ⟨hp, by simp⟩

theorem State.sendReturn_looping {s : State} (hp : s.phase = .transfer) : s.sendReturn.Looping := by
  rw [State.sendReturn_engine hp]
  exact ⟨hp, by simp⟩

theorem State.Looping.closeReturn {s : State} (h : s.Looping) : s.closeReturn.phase = .aborted := by
  rw [State.closeReturn, if_neg fun ⟨_, hq⟩ => h.pstep hq]

/-- The engine leaves its loop by completing or by an abort only. -/
theorem State.Line.looping {s t : State} (hl : s.Line t) (h : s.Looping) (hc : s.complete = false) :
    t.Looping ∨ t.phase = .aborted := by
  have elsewhere {p : Phase} (hp : s.phase = p) (hne : p ≠ .transfer) : False := hne (hp.symm.trans h.phase)
  cases hl with
  | openCall hp | opened hp | openFailed hp | linkFailed hp | digestBegin hp | digestSend hp | digestGap hp | digestSeen hp
  | digestConfirmed hp | lengthBegin hp | lengthSend hp | lengthGap hp | lengthSeen hp | enter hp =>
    exact (elsewhere hp (by simp)).elim
  | roundOver hp => exact (hp.elim (elsewhere · (by simp)) (elsewhere · (by simp))).elim
  | exitCall _ _ hq | flushed _ _ hq => exact absurd hq h.pstep
  | complete _ _ _ hcomplete => rw [hc] at hcomplete; cases hcomplete
  | closeUnlinked => exact .inr h.closeReturn
  | closed _ _ _ rest => exact .inr (State.Looping.closeReturn ⟨h.phase, h.pstep⟩)
  | reopenFailedSend | sent | retryUnlinked => exact .inl (State.sendReturn_looping h.phase)
  | reopenedRecv | reopenFailedRecv | recvNothing => exact .inl (State.recvNone_looping h.phase)
  | received =>
    obtain ⟨hp, hq, -⟩ := State.accept_place _ _ _
    exact .inl ⟨hp.trans h.phase, by simp [hq]⟩
  | window => exact .inl (State.seekSlot_looping h.phase)
  | reported | unreported => exact .inl ⟨h.phase, by simp⟩
  | wait | lost | closedLost | broughtUp | reopenedSend | sendUnlinked | sendFailed | recvUnlinked | recvFailed | abortCall | poll
  | slot => exact .inl ⟨h.phase, h.pstep⟩

/-! ### Overrun (R197) -/

/-- In the engine's loop with the cursor past the last of `n` blocks. -/
structure State.Overrun (n : BitVec 27) (s : State) : Prop extends s.Looping where
  blockcount : s.blockcount = n
  cursor : (n.toNat : Int) ≤ s.cursor.toInt

theorem State.Overrun.running {n : BitVec 27} {s : State} (h : s.Overrun n) : s.phase.atRest = false := by
  rw [h.phase]
  rfl

/-- Past the last block the completion test, an equality, fails. -/
theorem State.Overrun.not_complete {n : BitVec 27} {s : State} (h : s.Overrun n) : s.complete = false := by
  have hblocks := h.blockcount
  have hcursor := h.cursor
  simp only [State.complete, hblocks, decide_eq_false_iff_not]
  omega

theorem State.Line.overrun {n : BitVec 27} {s t : State} (hl : s.Line t) (h : s.Overrun n) : t.Overrun n ∨ t.phase = .aborted :=
  (hl.looping h.toLooping h.not_complete).imp_left fun hloop =>
    { hloop with
      blockcount := hl.blockcount.trans h.blockcount
      cursor := h.cursor.trans (hl.le_cursor (by simp [h.phase])) }

theorem State.Computes.overrun {n : BitVec 27} {s t : State} (hc : s.Computes t) (h : s.Overrun n ∨ s.phase = .aborted) :
    t.Overrun n ∨ t.phase = .aborted := by
  induction hc with
  | refl => exact h
  | line _ hs he _ ih =>
    rcases h with h | hp
    · exact ih ((State.line_of_selects hs he).overrun h)
    · have hrunning := hs.running
      rw [hp] at hrunning
      cases hrunning

/-- The environment's turns have no part in an overrun. -/
theorem State.Overrun.taken {n : BitVec 27} {s : State} (h : s.Overrun n) (rest : List Turn) :
    ({ s with script := rest } : State).Overrun n :=
  { h with }

theorem State.Overrun.command {n : BitVec 27} {s t : State} {i : Instr} (h : s.Overrun n) (hi : i = .start ∨ i = .abort)
    (he : exec i s = .next t) : t.Overrun n := by
  rcases hi with rfl | rfl <;> simp [exec, execStart, execAbort, h.running] at he <;> subst he
  · exact h
  · exact { h with }

theorem State.Overrun.hostAccess {n : BitVec 27} {s t : State} {a : HostAccess} (h : s.Overrun n)
    (he : hostAccess a s = .next t) : t.Overrun n := by
  rcases hostAccess_cases he with ⟨w, -, rfl⟩ | ⟨r, v, rfl⟩ | ⟨x, v, rfl⟩ | rfl
  · rwa [State.hostWrite_running w h.running]
  · exact { h with }
  · exact { h with }
  · exact h

/-- A step that no reset takes stays in overrun or ends in ABORTED. -/
theorem step_overrun {n : BitVec 27} {s t : State} (h : s.Overrun n) (hn : s.noReset) (hstep : step s = .next t) :
    t.Overrun n ∨ t.phase = .aborted := by
  have hd : s.drawTurn.Overrun n := by
    rw [s.drawTurn_frame]
    exact { h with }
  have taken : ∀ {u : State} rest, u.Overrun n ∨ u.phase = .aborted →
      ({ u with script := rest } : State).Overrun n ∨ ({ u with script := rest } : State).phase = .aborted :=
    fun rest hu => hu.imp_left (·.taken rest)
  rcases step_cases hstep with ⟨v, rest, i, -, hi, he⟩ | ⟨a, rest, -, he⟩ | ⟨rest, hreset, -⟩ | ⟨w, -, -, hc, -, hl⟩
  · exact .inl ((hd.taken rest).command (decodeCommand_ok hi) he)
  · exact .inl ((hd.taken rest).hostAccess he)
  · exact absurd hreset (hn rest)
  · have hw := hc.overrun (.inl hd)
    rcases hl with (rfl | ⟨x, rest, -, rfl⟩) | ⟨u, i, hu, hr, hf, he⟩
    · exact hw
    · exact taken rest hw
    · have hu : u.Overrun n ∨ u.phase = .aborted := by
        rcases hu with rfl | ⟨-, x, rest, -, rfl⟩
        · exact hw
        · exact taken rest hw
      rcases hu with hu | hp
      · exact (State.line_of_fetch hf he).overrun hu
      · rw [hp] at hr; cases hr

/-- Settles O47: every line of the block keeps the overrun, but for the return of an abort's LS.CLOSE. -/
theorem overrunPersists : Obligations.OverrunPersists := by
  intro s t _ hp hq hc hn hstep
  refine (step_overrun (n := s.blockcount) ⟨⟨hp, hq⟩, rfl, hc⟩ hn hstep).imp_left fun h => ?_
  exact ⟨h.phase, h.pstep, h.blockcount, h.blockcount ▸ h.cursor⟩

end Sys2Proof.Machine
end

section
/-!
PROOFS. The reporter's events (O45): their counts in bytes, which no width cuts off, and when they are emitted.
-/
namespace Sys2Proof.Machine

/-! ### The counts of an event (44_progress.md R224) -/

section
variable {s : State}

/-- No count of blocks of a 33-bit cursor, in bytes, wraps in 36 bits. -/
theorem toNat_ofInt_bytes {n : Int} (h0 : 0 ≤ n) (hn : n ≤ 2 ^ 32) : ((BitVec.ofInt 36 (n * 7)).toNat : Int) = n * 7 := by
  rw [BitVec.toNat_ofInt]
  omega

theorem State.toNat_progressEvent_delta (hge : -1 ≤ s.lastrep.toInt) (hle : s.lastrep.toInt ≤ s.cursor.toInt) :
    (s.progressEvent.delta.toNat : Int) = (s.cursor.toInt - s.lastrep.toInt) * 7 := by
  have hcur := s.cursor.toInt_lt
  exact toNat_ofInt_bytes (by omega) (by omega)

theorem State.toNat_progressEvent_confirmed (hge : -1 ≤ s.cursor.toInt) :
    (s.progressEvent.confirmed.toNat : Int) = (s.cursor.toInt + 1) * 7 := by
  have hcur := s.cursor.toInt_lt
  exact toNat_ofInt_bytes (by omega) (by omega)

/-! ### PR.REPORT and PR.FLUSH (R221, R222) -/

theorem exec_prReport (hp : s.phase = .transfer) (ho : s.op = .noOp) (hq : s.pstep = .report) :
    exec .prReport s =
      if s.reportDue then .next { s.emitProgress with pstep := .boundary } else .next { s with pstep := .boundary } := by
  simp only [exec, execPrReport, hp, ho, hq]

theorem exec_prFlush (hp : s.phase = .transfer) (ho : s.op = .noOp) (hq : s.pstep = .exit) :
    exec .prFlush s = if s.flushDue then .next s.emitProgress else .next s := by
  simp only [exec, execPrFlush, hp, ho, hq]

theorem State.reportDue_iff : s.reportDue = true ↔ (s.cfg.gran.toNat : Int) ≤ s.cursor.toInt - s.lastrep.toInt := by
  simp only [State.reportDue, decide_eq_true_eq]

theorem State.flushDue_iff : s.flushDue = true ↔ s.lastrep.toInt < s.cursor.toInt := by
  simp only [State.flushDue, decide_eq_true_eq]

end

/-- Settles O45: both operations emit `State.progressEvent`, each on its own test. -/
theorem reporterEvents : Obligations.ReporterEvents := by
  intro s hp ho hge hle
  refine ⟨s.progressEvent, State.toNat_progressEvent_delta hge hle, State.toNat_progressEvent_confirmed (hge.trans hle), rfl,
    fun hq => ?report, fun hq => ?flush⟩
  case report =>
    rw [exec_prReport hp ho hq]
    exact ⟨fun hdue => if_pos (State.reportDue_iff.2 hdue), fun hlt => if_neg fun hdue => (State.reportDue_iff.1 hdue).not_gt hlt⟩
  case flush =>
    rw [exec_prFlush hp ho hq]
    exact ⟨fun hlt => if_pos (State.flushDue_iff.2 hlt), fun heq => if_neg fun hdue => (State.flushDue_iff.1 hdue).ne heq⟩

end Sys2Proof.Machine
end

section
/-!
PROOFS. The events account for every block (O59): an event adds to the account what LASTREP goes up by, and nothing else touches it.
-/
namespace Sys2Proof.Machine

/-! ### The account -/

section
variable {s t : State}

/-- Outside the engine and DONE nothing is asked of the events. -/
theorem State.eventsSettled_elsewhere (ht : s.phase ≠ .transfer) (hd : s.phase ≠ .done) : s.eventsSettled :=
  ⟨fun hp => absurd hp ht, fun hp => absurd hp hd⟩

theorem State.eventsSettled_engine (hp : s.phase = .transfer) (hr : s.reported) (hl : s.evt.total = s.imgLen)
    (hx : s.pstep = .exit → s.cursor.toInt = (s.blockcount.toNat : Int) - 1 ∧ (s.op = .closeOp → s.lastrep = s.cursor)) :
    s.eventsSettled :=
  ⟨fun _ => ⟨hr, hl, hx⟩, fun hd => by rw [hp] at hd; cases hd⟩

/-- The phase, and the registers and the sum the account is kept in. -/
def State.ledger (s : State) : Phase × Signed33 × ProgressEvent × BitVec 32 × Nat :=
  (s.phase, s.lastrep, s.evt, s.imgLen, deltaSum s.trace)

/-- In a run, what leaves the account as it is and does not go to the engine's exit keeps it settled. -/
theorem State.eventsSettled.of_ledger (h : s.eventsSettled) (hr : s.phase.atRest = false) (e : t.ledger = s.ledger)
    (hq : s.phase = .transfer → t.pstep ≠ .exit) : t.eventsSettled := by
  simp only [State.ledger, Prod.mk.injEq] at e
  obtain ⟨hphase, hrep, hevt, hlen, hsum⟩ := e
  by_cases hp : s.phase = .transfer
  · obtain ⟨hreported, htotal, -⟩ := h.1 hp
    refine State.eventsSettled_engine (hphase.trans hp) ?_ (by rw [hevt, hlen, htotal]) fun hx => absurd hx (hq hp)
    rwa [State.reported, hevt, hrep, hsum]
  · refine State.eventsSettled_elsewhere (hphase ▸ hp) fun hd => ?_
    rw [← hphase, hd] at hr
    cases hr

theorem State.seekSlot_ledger (s : State) : s.seekSlot.ledger = s.ledger := by rw [s.seekSlot_frame]; rfl

theorem State.recvNone_ledger (s : State) : s.recvNone.ledger = s.ledger := by rw [s.recvNone_frame]; rfl

theorem State.sendReturn_ledger (s : State) : s.sendReturn.ledger = s.ledger := by rw [s.sendReturn_frame]; rfl

theorem State.digestGapDone_ledger (s : State) : s.digestGapDone.ledger = s.ledger := by
  rcases s.digestGapDone_cases with ⟨-, e⟩ | ⟨-, e⟩ <;> rw [e] <;> rfl

theorem State.dropReply_ledger (s : State) : s.dropReply.ledger = s.ledger := by
  rcases s.dropReply_cases with e | ⟨_, _, -, e⟩
  · rw [e]
  · rw [e]; rfl

theorem State.consume_ledger (m : Message) (s : State) : (s.consume m).ledger = s.ledger := by
  rcases s.consume_cases m with ⟨_, _, _, _, -, -, e⟩ | ⟨_, _, _, _, -, -, e⟩ | e <;> rw [e] <;> rfl

theorem State.accept_ledger (c : Handle) (m : Message) (s : State) : (s.accept c m).ledger = s.ledger :=
  State.consume_ledger m _

/-! ### An event enters the account -/

/-- An event that tells at least one block adds it to both counts (R225 (a), (d)). -/
theorem State.reported.emitProgress (h : s.reported) (hge : -1 ≤ s.lastrep.toInt) (hlt : s.lastrep.toInt < s.cursor.toInt) :
    s.emitProgress.reported := by
  have hdelta := State.toNat_progressEvent_delta hge hlt.le
  have hne : s.progressEvent.delta ≠ 0 := fun hz => by
    simp only [hz, BitVec.ofNat_eq_ofNat, BitVec.toNat_ofNat] at hdelta
    omega
  obtain ⟨-, hsum⟩ := h
  refine ⟨State.toNat_progressEvent_confirmed (hge.trans hlt.le), ?_⟩
  simp only [State.emitProgress_trace, State.emitProgress_lastrep, deltaSum, if_neg hne]
  omega

/-- The granularity of a run is at least one block (R232). -/
theorem State.gran_ne_zero_of_configCheck (h : s.configCheck = none) : s.cfg.gran ≠ 0 := by
  unfold State.configCheck at h
  intro hz
  simp only [if_pos hz] at h
  repeat' split at h
  all_goals cases h

theorem State.Sound.lastrep_lt_of_reportDue (h : s.Sound) (hd : s.reportDue = true) : s.lastrep.toInt < s.cursor.toInt := by
  have hgran : 0 < s.cfg.gran.toNat :=
    Nat.pos_of_ne_zero fun hz => State.gran_ne_zero_of_configCheck h.config (BitVec.eq_of_toNat_eq hz)
  have hdue := State.reportDue_iff.1 hd
  omega

/-- With nothing to flush LASTREP is CURSOR. -/
theorem State.Sound.lastrep_eq_of_not_flushDue (h : s.Sound) (hf : s.flushDue = false) : s.lastrep = s.cursor := by
  have hle := h.lastrep_le
  have hge : ¬ s.lastrep.toInt < s.cursor.toInt := fun hlt => by simp [State.flushDue_iff.2 hlt] at hf
  exact BitVec.eq_of_toInt_eq (by omega)

/-! ### The lines of the block -/

/-- A recovery runs at a send or a receive of the engine, never at its exit. -/
theorem State.pstep_of_recoverable (hr : s.recoverable = true) (hp : s.phase = .transfer) : s.pstep ≠ .exit := by
  intro hq
  cases ho : s.op <;> simp [State.recoverable, ho, hp, hq] at hr

/-- LS.CLOSE's return: DONE from the engine's exit with every block reported, else ABORTED. -/
theorem State.eventsSettled.closeReturn (h : s.eventsSettled) (ho : s.op = .closeOp) : s.closeReturn.eventsSettled := by
  rcases s.closeReturn_cases with ⟨hp, hq, e⟩ | ⟨-, e⟩ <;> rw [e]
  · obtain ⟨⟨hconfirmed, hsum⟩, -, hexit⟩ := h.1 hp
    obtain ⟨hcursor, hflushed⟩ := hexit hq
    have hrep := hflushed ho
    rw [hrep, hcursor] at hconfirmed hsum
    have hcount : s.evt.confirmed.toNat = 7 * s.blockcount.toNat := by omega
    have hdeltas : deltaSum s.trace = 7 * s.blockcount.toNat := by omega
    exact ⟨nofun, fun _ => ⟨hcursor, hcount, hdeltas⟩⟩
  · exact State.eventsSettled_elsewhere (by simp) (by simp)

theorem State.Line.eventsSettled (hl : s.Line t) (hs : s.Sound) (hr : s.phase.atRest = false) (h : s.eventsSettled) :
    t.eventsSettled := by
  cases hl with
  | wait => exact h
  -- the account opens, grows and closes
  | enter hp ho => exact State.eventsSettled_engine rfl ⟨rfl, rfl⟩ rfl fun hq => by cases hq
  | reported hp ho hq hd =>
    obtain ⟨hreported, -, -⟩ := h.1 hp
    exact State.eventsSettled_engine hp (hreported.emitProgress hs.lastrep_ge (hs.lastrep_lt_of_reportDue hd)) rfl
      fun hx => by cases hx
  | flushed hp ho hq hf =>
    obtain ⟨hreported, -, hexit⟩ := h.1 hp
    exact State.eventsSettled_engine hp (hreported.emitProgress hs.lastrep_ge (State.flushDue_iff.1 hf)) rfl
      fun hx => ⟨(hexit hx).1, fun _ => rfl⟩
  | complete hp ho hq hc =>
    obtain ⟨hreported, htotal, -⟩ := h.1 hp
    refine State.eventsSettled_engine hp hreported htotal fun _ => ⟨State.complete_iff.1 hc, fun hclose => ?_⟩
    cases ho.symm.trans hclose
  | exitCall hp ho hq hf =>
    obtain ⟨hreported, htotal, hexit⟩ := h.1 hp
    exact State.eventsSettled_engine hp hreported htotal fun hx => ⟨(hexit hx).1, fun _ => hs.lastrep_eq_of_not_flushDue hf⟩
  | closeUnlinked hp ho hl => exact h.closeReturn ho
  | @closed hp ho c hl rest =>
    exact State.eventsSettled.closeReturn (s := { s with script := rest, trace := .closed c :: s.trace }) h ho
  -- before the engine
  | opened | linkFailed | digestSeen | digestConfirmed | lengthSeen =>
    exact State.eventsSettled_elsewhere (by simp [State.openReturn]) (by simp [State.openReturn])
  | openCall hp | openFailed hp | digestBegin hp | digestSend hp | lengthBegin hp | lengthSend hp | lengthGap hp =>
    exact h.of_ledger hr rfl fun ht => by rw [hp] at ht; cases ht
  | digestGap hp => exact h.of_ledger hr (State.digestGapDone_ledger _) fun ht => by rw [hp] at ht; cases ht
  -- short of the exit
  | roundOver | unreported => exact h.of_ledger hr rfl fun _ => by simp
  | poll hp ho hq => exact h.of_ledger hr rfl fun _ => by rcases hq with hq | hq <;> simp [hq]
  | abortCall hp ho hq | slot hp ho hq => exact h.of_ledger hr rfl fun _ => by simp [hq]
  | window hp => exact h.of_ledger hr (State.seekSlot_ledger _) fun _ => State.Looping.pstep (State.seekSlot_looping hp)
  | lost hrec | closedLost hrec | broughtUp hrec | reopenedSend hrec | sendUnlinked hrec | sendFailed hrec | recvUnlinked hrec =>
    exact h.of_ledger hr rfl (State.pstep_of_recoverable hrec)
  | recvFailed hrecv =>
    obtain ⟨hp, ho, -, hq, -⟩ := State.receiving_iff.1 hrecv
    exact h.of_ledger hr rfl (State.pstep_of_recoverable (State.recoverable_recv hp ho hq))
  | reopenFailedSend | sent | retryUnlinked =>
    exact h.of_ledger hr (State.sendReturn_ledger _) fun hp => State.Looping.pstep (State.sendReturn_looping hp)
  | reopenedRecv | reopenFailedRecv | recvNothing =>
    exact h.of_ledger hr (State.recvNone_ledger _) fun hp => State.Looping.pstep (State.recvNone_looping hp)
  | received => exact h.of_ledger hr (State.accept_ledger _ _ _) fun _ => by simp [(State.accept_place _ _ _).2.1]

/-! ### The environment's turns -/

theorem State.eventsSettled.start (h : s.eventsSettled) (he : exec .start s = .next t) : t.eventsSettled := by
  simp only [exec, execStart] at he
  repeat' split at he
  all_goals cases he
  · exact State.eventsSettled_elsewhere (by simp) (by simp)
  · exact State.eventsSettled_elsewhere (by simp) (by simp)
  · exact h

theorem State.eventsSettled.abort (h : s.eventsSettled) (he : exec .abort s = .next t) : t.eventsSettled := by
  simp only [exec, execAbort] at he
  split at he <;> cases he <;> exact h

/-- At rest only DONE has an account, and it is kept in registers the host does not write. -/
theorem State.eventsSettled.hostWrite (h : s.eventsSettled) (w : HostWrite) : (s.hostWrite w).eventsSettled := by
  cases hr : s.phase.atRest with
  | false => rwa [State.hostWrite_running w hr]
  | true =>
    rw [State.hostWrite_atRest w hr, s.applyWrite_frame w]
    refine ⟨fun hp => ?_, h.2⟩
    rw [show s.phase = .transfer from hp] at hr
    cases hr

theorem State.eventsSettled.hostAccess {a : HostAccess} (h : s.eventsSettled) (he : hostAccess a s = .next t) :
    t.eventsSettled := by
  rcases hostAccess_cases he with ⟨w, -, rfl⟩ | ⟨r, v, rfl⟩ | ⟨x, v, rfl⟩ | rfl
  · exact h.hostWrite w
  · exact h
  · exact h
  · exact h

theorem State.eventsSettled.receiveFrame {m : Message} (h : s.eventsSettled) (he : receiveFrame m s = .next t) :
    t.eventsSettled := by
  rcases receiveFrame_cases he with rfl | ⟨c, hrecv, -, rfl⟩
  · exact h
  · obtain ⟨hp, -⟩ := State.receiving_iff.1 hrecv
    have hr : s.phase.atRest = false := by rcases Phase.exchanging_iff.1 hp with hp | hp | hp <;> rw [hp] <;> rfl
    exact h.of_ledger hr ((State.accept_ledger c m _).trans s.dropReply_ledger) fun _ => by simp [(State.accept_place c m _).2.1]

end

/-- Settles O59: with the invariant, which bounds LASTREP by CURSOR and the granularity from below, each turn keeps the account. -/
theorem eventsAccountForBlocks : Obligations.EventsAccountForBlocks := by
  intro s t hinv h hstep
  refine And.right <| step_keeps (P := fun s => s.Inv ∧ s.eventsSettled) (turns := fun s l n h => ⟨{ h.1 with }, h.2⟩)
    (command := ?command) (host := fun s t a h he => ⟨h.1.hostAccess he, h.2.hostAccess he⟩)
    (reset := fun s h => ⟨h.1.hardReset, State.eventsSettled_elsewhere nofun nofun⟩)
    (selected := ?selected) (frame := fun s t m h he => ⟨h.1.receiveFrame he, h.2.receiveFrame he⟩) ⟨hinv, h⟩ hstep
  case command =>
    rintro s t v i ⟨hinv, h⟩ hi he
    rcases decodeCommand_ok hi with rfl | rfl
    · exact ⟨hinv.start he, h.start he⟩
    · exact ⟨hinv.abort he, h.abort he⟩
  case selected =>
    rintro s t i ⟨hinv, h⟩ hs he
    have hline := State.line_of_selects hs he
    exact ⟨hline.inv hinv hs.running, hline.eventsSettled (hinv.sound hs.running) hs.running h⟩

end Sys2Proof.Machine
end

section
/-!
PROOFS. START and CONFIG_CHECK (O20, O22, O23).
-/
namespace Sys2Proof.Machine

/-! ### CONFIG_CHECK (45_control.md R232) -/

/-- One more check in front of the others. -/
theorem find?_cons_ite (p : ConfigCause → Bool) (c : ConfigCause) (cs : List ConfigCause) :
    (c :: cs).find? p = if p c = true then some c else cs.find? p := by
  rw [List.find?_cons]
  cases p c <;> rfl

/-- The chain of checks is the search through the table. -/
theorem State.configCheck_eq_find (s : State) : s.configCheck = configOrder.find? (configFails s) := by
  simp only [configOrder, find?_cons_ite, List.find?_nil, configFails, Bool.not_eq_true', decide_eq_true_eq]
  rfl

/-- Settles O20: the operation returns what the chain of checks finds. -/
theorem configCheckGivesFirstFailure : Obligations.ConfigCheckGivesFirstFailure := by
  intro s
  rw [← State.configCheck_eq_find]
  rfl

theorem State.configCheck_eq_none {s : State} (h : ∀ c, configFails s c = false) : s.configCheck = none := by
  rw [State.configCheck_eq_find, List.find?_eq_none]
  exact fun c _ => by simp [h c]

/-! ### START (R231, R234) -/

theorem exec_start_running {s : State} (h : s.phase.atRest = false) : exec .start s = .next s := by
  simp only [exec, execStart, h, Bool.false_eq_true, if_false]

theorem exec_start_passed {s : State} (h : s.phase.atRest = true) (hc : s.configCheck = none) :
    exec .start s = .next { s.freshRun with blockcount := (blockCountOf s.imgLen).setWidth 27, phase := .opening } := by
  simp only [exec, execStart, h, if_true, hc]

theorem exec_start_failed {s : State} (h : s.phase.atRest = true) {c : ConfigCause} (hc : s.configCheck = some c) :
    exec .start s = .next (takeException (.config c) s.freshRun) := by
  simp only [exec, execStart, h, if_true, hc]

/-- Settles O23, by the one test START makes first. -/
theorem startIgnoredWhileRunning : Obligations.StartIgnoredWhileRunning :=
  fun _ => exec_start_running

/-- Settles O22: with no check failing, START is a fresh run in OPENING; TXF and FRESH are those of the state. -/
theorem startBeginsFreshRun : Obligations.StartBeginsFreshRun := by
  intro s hr hf
  have hblocks : (blockCountOf s.imgLen).setWidth 27 = BitVec.ofNat 27 ((s.imgLen.toNat + 6) / 7) :=
    BitVec.setWidth_ofNat_of_le (by omega) _
  refine ⟨s.txf, s.fresh, ?_⟩
  rw [exec_start_passed hr (State.configCheck_eq_none hf), hblocks]
  rfl

end Sys2Proof.Machine
end

section
/-!
PROOFS. PHASE moves along the arrows of the phase graph (O51): an operation along at most one, a step along those its internal
computation and its atomic step still have before them.
-/
namespace Sys2Proof.Machine

section
variable {s t : State}

/-! ### PHASE after each named update -/

@[simp] theorem State.seekSlot_phase (s : State) : s.seekSlot.phase = s.phase := by rw [s.seekSlot_frame]

@[simp] theorem State.recvNone_phase (s : State) : s.recvNone.phase = s.phase := by rw [s.recvNone_frame]

@[simp] theorem State.sendReturn_phase (s : State) : s.sendReturn.phase = s.phase := by rw [s.sendReturn_frame]

@[simp] theorem State.digestGapDone_phase (s : State) : s.digestGapDone.phase = s.phase := by
  rcases s.digestGapDone_cases with ⟨-, e⟩ | ⟨-, e⟩ <;> rw [e]

@[simp] theorem State.accept_phase (c : Handle) (m : Message) (s : State) : (s.accept c m).phase = s.phase :=
  (s.accept_place c m).1

@[simp] theorem State.drawTurn_phase (s : State) : s.drawTurn.phase = s.phase := by rw [s.drawTurn_frame]

/-! ### One arrow -/

theorem Phase.arrow_of_atRest {p q : Phase} (hp : p.atRest = true) (hq : q = .cfgError ∨ q = .opening) : p.arrow q = true := by
  cases p <;> simp [Phase.atRest] at hp <;> simpa [Phase.arrow] using hq

/-- LS.CLOSE returns to a terminal phase. -/
theorem State.closeReturn_atRest (s : State) : s.closeReturn.phase.atRest = true := by
  rcases s.closeReturn_cases with ⟨-, -, e⟩ | ⟨-, e⟩ <;> rw [e] <;> rfl

theorem State.arrow_closeReturn (hp : s.phase.exchanging = true) : s.phase.arrow s.closeReturn.phase = true := by
  rcases s.closeReturn_cases with ⟨ht, -, e⟩ | ⟨-, e⟩ <;> rw [e]
  · rw [ht]; rfl
  · rcases Phase.exchanging_iff.1 hp with hp | hp | hp <;> rw [hp] <;> rfl

/-- Every line leaves PHASE or moves it along an arrow. -/
theorem State.Line.phase (hl : s.Line t) : t.phase = s.phase ∨ s.phase.arrow t.phase = true := by
  cases hl with
  | opened hp | linkFailed hp | digestSeen hp | digestConfirmed hp | lengthSeen hp | enter hp => exact .inr (by rw [hp]; rfl)
  | closeUnlinked hp => exact .inr (State.arrow_closeReturn hp)
  | @closed hp _ c _ rest => exact .inr (State.arrow_closeReturn (s := { s with script := rest, trace := .closed c :: s.trace }) hp)
  | _ => exact .inl (by simp)

theorem exec_command_phase {i : Instr} (hi : i = .start ∨ i = .abort) (he : exec i s = .next t) :
    t.phase = s.phase ∨ s.phase.arrow t.phase = true := by
  cases hr : s.phase.atRest with
  | false =>
    rcases hi with rfl | rfl
    · cases (exec_start_running hr).symm.trans he; exact .inl rfl
    · cases (exec_abort_running hr).symm.trans he; exact .inl rfl
  | true =>
    rcases hi with rfl | rfl
    · cases hc : s.configCheck with
      | none => cases (exec_start_passed hr hc).symm.trans he; exact .inr (Phase.arrow_of_atRest hr (.inr rfl))
      | some c => cases (exec_start_failed hr hc).symm.trans he; exact .inr (Phase.arrow_of_atRest hr (.inl rfl))
    · cases (exec_abort_atRest hr).symm.trans he; exact .inl rfl

theorem Instr.command_of_format {i : Instr} (hi : i.format = .hostCommand) : i = .start ∨ i = .abort := by
  cases i
  case start => exact .inl rfl
  case abort => exact .inr rfl
  all_goals cases hi

theorem receiveFrame_phase {m : Message} (he : receiveFrame m s = .next t) : t.phase = s.phase :=
  receiveFrame_keeps (fun _ _ _ _ _ => rfl) he State.accept_phase

theorem exec_frame_phase {i : Instr} (hi : i.format = .frame93) (he : exec i s = .next t) : t.phase = s.phase := by
  cases i
  case data | infoLen | infoDig | progress => exact receiveFrame_phase he
  all_goals cases hi

theorem hostAccess_phase {a : HostAccess} (he : hostAccess a s = .next t) : t.phase = s.phase := by
  rcases hostAccess_cases he with ⟨w, -, rfl⟩ | ⟨r, v, rfl⟩ | ⟨x, v, rfl⟩ | rfl
  · unfold State.hostWrite
    split
    · rw [s.applyWrite_frame w]
    · rfl
  all_goals rfl

/-! ### Several arrows -/

/-- A path of at most `n` arrows of the phase graph. -/
def Phase.Within (n : Nat) (p q : Phase) : Prop :=
  ∃ path : List Phase, path.length ≤ n ∧ List.IsChain (fun a b => Phase.arrow a b = true) (p :: path) ∧
    (p :: path).getLast? = some q

theorem Phase.within_refl (n : Nat) (p : Phase) : Phase.Within n p p := ⟨[], by simp, by simp, rfl⟩

theorem Phase.Within.mono {m n : Nat} {p q : Phase} (h : Phase.Within m p q) (hn : m ≤ n) : Phase.Within n p q := by
  obtain ⟨path, hlen, hchain, hlast⟩ := h
  exact ⟨path, hlen.trans hn, hchain, hlast⟩

theorem Phase.Within.cons {n : Nat} {p q r : Phase} (h : Phase.Within n q r) (ha : p.arrow q = true) :
    Phase.Within (n + 1) p r := by
  obtain ⟨path, hlen, hchain, hlast⟩ := h
  exact ⟨q :: path, by simpa using hlen, List.isChain_cons_cons.2 ⟨ha, hchain⟩, by rwa [List.getLast?_cons_cons]⟩

theorem Phase.within_one {p q : Phase} (h : q = p ∨ p.arrow q = true) : Phase.Within 1 p q := by
  rcases h with rfl | ha
  · exact Phase.within_refl 1 q
  · exact (Phase.within_refl 0 q).cons ha

theorem Phase.Within.phasePath {n : Nat} {p q : Phase} (h : Phase.Within n p q) (h3 : n ≤ 3)
    (h1 : p.atRest = true ∨ p = .opening → n ≤ 1) : phasePath p q := by
  obtain ⟨path, hlen, hchain, hlast⟩ := h
  exact ⟨path, hlen.trans h3, fun hp => hlen.trans (h1 hp), hchain, hlast⟩

/-! ### The arrows a step has before it -/

/-- How many arrows the block's own step can still go along from here. The internal computation passes from SENDING_DIGEST over
DIGEST_CONFIRMED into SENDING_LENGTH, where an abort may end the run, and, only where it finds an evaluation to make there, from
SENDING_LENGTH to LENGTH_CONFIRMED, whose Emit enters the engine (42_handshake.md R173, R175, 43_transfer.md R190). -/
def State.arrowsLeft (s : State) : Nat :=
  match s.phase with
  | .sendingDigest => 3
  | .digestConfirmed => 2
  | .sendingLength => if s.pstep = .eval then 2 else 1
  | .opening | .lengthConfirmed | .transfer => 1
  | .idle | .done | .aborted | .cfgError | .linkFailed => 0

theorem State.arrowsLeft_le (s : State) : s.arrowsLeft ≤ 3 := by
  unfold State.arrowsLeft
  repeat' split
  all_goals omega

theorem State.arrowsLeft_le_one (h : s.phase.atRest = true ∨ s.phase = .opening) : s.arrowsLeft ≤ 1 := by
  cases hp : s.phase <;> simp [hp, Phase.atRest] at h <;> simp [State.arrowsLeft, hp]

theorem State.arrowsLeft_atRest (h : s.phase.atRest = true) : s.arrowsLeft = 0 := by
  cases hp : s.phase <;> simp [hp, Phase.atRest] at h <;> simp [State.arrowsLeft, hp]

theorem State.arrowsLeft_running (h : s.phase.atRest = false) : 1 ≤ s.arrowsLeft := by
  unfold State.arrowsLeft
  cases hp : s.phase <;> simp [hp, Phase.atRest] at h ⊢
  split <;> omega

/-- Where PHASE stays, only the evaluation of the length puts an arrow before the block. -/
theorem State.arrowsLeft_stay (hp : t.phase = s.phase) (hq : s.phase = .sendingLength → t.pstep = .eval → s.pstep = .eval) :
    t.arrowsLeft ≤ s.arrowsLeft := by
  unfold State.arrowsLeft
  rw [hp]
  cases hs : s.phase <;> simp only [le_refl]
  have hq := hq hs
  split
  · rw [if_pos (hq (by assumption))]
  · split <;> omega

theorem State.sendReturn_ne_eval (s : State) : s.sendReturn.pstep ≠ .eval := by
  rcases s.sendReturn_cases with ⟨-, e⟩ | ⟨-, e⟩ <;> rw [e] <;> simp

/-- What computes stands at no open of a recovery. -/
theorem State.not_recOpen_of_computing (hc : s.computing = true) (ho : s.op ≠ .noOp) : s.opstep ≠ .recOpen := by
  intro hq
  cases hop : s.op <;> simp [State.computing, State.atRequest, hop, hq] at hc ho

/-- A line of the internal computation that moves PHASE uses up an arrow, and one that leaves PHASE puts none before the block. -/
theorem State.Line.arrowsLeft (hl : s.Line t) (hr : s.phase.atRest = false) (hc : s.computing = true) :
    s.phase.arrow t.phase = true ∧ t.arrowsLeft < s.arrowsLeft ∨ t.phase = s.phase ∧ t.arrowsLeft ≤ s.arrowsLeft := by
  have ended {u : State} : State.arrowsLeft u.closeReturn < s.arrowsLeft := by
    rw [State.arrowsLeft_atRest u.closeReturn_atRest]
    exact State.arrowsLeft_running hr
  have stay (hp : t.phase = s.phase) (hq : s.phase = .sendingLength → t.pstep = .eval → s.pstep = .eval) :
      s.phase.arrow t.phase = true ∧ t.arrowsLeft < s.arrowsLeft ∨ t.phase = s.phase ∧ t.arrowsLeft ≤ s.arrowsLeft :=
    .inr ⟨hp, State.arrowsLeft_stay hp hq⟩
  cases hl with
  -- PHASE moves
  | digestSeen hp | digestConfirmed hp => exact .inl ⟨by rw [hp]; rfl, by simp [State.arrowsLeft, hp]⟩
  | lengthSeen hp _ hq => exact .inl ⟨by rw [hp]; rfl, by simp [State.arrowsLeft, hp, hq]⟩
  | closeUnlinked hp => exact .inl ⟨State.arrow_closeReturn hp, ended⟩
  | @closed hp _ c _ rest =>
    exact .inl ⟨State.arrow_closeReturn (s := { s with script := rest, trace := .closed c :: s.trace }) hp, ended⟩
  -- an open, a receive and an Emit are no internal computation
  | opened _ ho hq =>
    rcases hq with hq | hq
    · simp [State.computing, State.atRequest, ho, hq] at hc
    · exact absurd hq (State.not_recOpen_of_computing hc (by simp [ho]))
  | linkFailed _ ho hq | reopenedRecv _ ho hq | reopenFailedRecv _ ho hq =>
    exact absurd hq (State.not_recOpen_of_computing hc (by simp [ho]))
  | recvNothing hr => simp [State.computing_receiving hr] at hc
  | enter hp ho => simp [State.computing, State.atEmit, hp, ho] at hc
  -- PHASE stays, and PSTEP goes elsewhere than to EVAL or stays too
  | reopenFailedSend | sent | retryUnlinked => exact stay (by simp) fun _ hq => absurd hq (State.sendReturn_ne_eval _)
  | received => exact stay (by simp) fun _ hq => by simp [(State.accept_place _ _ _).2.1] at hq
  | digestGap hp | window hp => exact stay (by simp) fun hp' => by simp [hp] at hp'
  | lengthGap | digestBegin | lengthBegin | roundOver | reported | unreported | complete => exact stay rfl fun _ hq => by cases hq
  | _ => exact stay rfl fun _ hq => hq

/-- The internal computation goes along arrows it had before it. -/
theorem State.Computes.within {q : Phase} (h : s.Computes t) (hq : Phase.Within t.arrowsLeft t.phase q) :
    Phase.Within s.arrowsLeft s.phase q := by
  induction h with
  | refl => exact hq
  | @line s u t i hc hs he _ ih =>
    rcases (State.line_of_selects hs he).arrowsLeft hs.running hc with ⟨ha, hlt⟩ | ⟨hp, hle⟩
    · exact ((ih hq).cons ha).mono hlt
    · rw [← hp]
      exact (ih hq).mono hle

/-- The host's turn goes along one arrow at most; the block's own along those of its internal computation and of the one line
after it. -/
theorem step_phasePath (hn : s.noReset) (h : step s = .next t) : phasePath s.phase t.phase := by
  have single {d : State} (hd : d.phase = s.phase) (ht : t.phase = d.phase ∨ d.phase.arrow t.phase = true) :
      phasePath s.phase t.phase := by
    rw [hd] at ht
    exact (Phase.within_one ht).phasePath (by omega) fun _ => le_refl 1
  rcases step_cases h with ⟨v, rest, i, -, hi, he⟩ | ⟨a, rest, -, he⟩ | ⟨rest, hreset, -⟩ | ⟨w, -, -, hc, -, hl⟩
  · exact single (by simp) (exec_command_phase (decodeCommand_ok hi) he)
  · exact single (by simp) (.inl (hostAccess_phase he))
  · exact absurd hreset (hn rest)
  · have hw : Phase.Within w.arrowsLeft w.phase t.phase := by
      rcases hl with (rfl | ⟨x, rest, -, rfl⟩) | ⟨u, i, hu, hr, hf, he⟩
      · exact Phase.within_refl _ _
      · exact Phase.within_refl _ _
      · have hp : u.phase = w.phase := by rcases hu with rfl | ⟨-, x, rest, -, rfl⟩ <;> rfl
        rw [hp] at hr
        have hone := Phase.within_one (State.line_of_fetch hf he).phase
        rw [hp] at hone
        exact hone.mono (State.arrowsLeft_running hr)
    rw [← s.drawTurn_phase]
    exact (hc.within hw).phasePath (State.arrowsLeft_le _) State.arrowsLeft_le_one

end

/-- Settles O51: an operation makes a line, a command or a frame, each with at most one arrow; a step goes along the arrows left. -/
theorem phaseMovesAlongArrows : Obligations.PhaseMovesAlongArrows := by
  refine fun s t => ⟨fun i hi he => ?_, step_phasePath⟩
  rcases hi with hi | hi | hi
  · exact (State.line_of_selects (State.selects_of_selected hi) he).phase
  · exact exec_command_phase (Instr.command_of_format hi) he
  · exact .inl (exec_frame_phase hi he)

end Sys2Proof.Machine
end

section
/-!
PROOFS. From a state of the invariant the machine goes on (O50): every control state the block takes selects an operation, the
operands of that operation are in range, and every port answer is one the operation takes.
-/
namespace Sys2Proof.Machine

/-! ### Every control state the block takes selects an operation -/

section
variable {s : State}

/-- A link-supervisor operation in progress that fits PSTEP. -/
theorem State.linkSelection_exists {closing : Bool} (ho : s.op ≠ .noOp) (h : s.linkOpLegal closing = true) :
    ∃ i, s.linkSelection closing = .ok i := by
  cases hop : s.op with
  | noOp => exact absurd hop ho
  | openOp => simp [State.linkOpLegal, hop] at h
  | sendOp =>
    simp only [State.linkOpLegal, hop, Bool.and_eq_true, decide_eq_true_eq] at h
    obtain ⟨hs, -⟩ := h
    cases hq : s.opstep <;> simp [State.linkSelection, hop, hs, hq]
  | recvOp =>
    simp only [State.linkOpLegal, hop, Bool.and_eq_true, Bool.or_eq_true, decide_eq_true_eq] at h
    obtain ⟨hs, hlegal⟩ := h
    cases hq : s.opstep
    case retry => simp [State.transferOpLegal, hq] at hlegal
    all_goals simp [State.linkSelection, hop, hs, hq]
  | closeOp =>
    have hclose : closing = true ∧ s.opstep = .tryPort := by simpa [State.linkOpLegal, hop] using h
    simp [State.linkSelection, hop, hclose]

theorem State.selected_exists_opening (hp : s.phase = .opening) (h : s.controlLegal = true) : ∃ i, s.selected = .ok i := by
  rw [State.selected_opening hp]
  cases ho : s.op
  case noOp => exact ⟨_, rfl⟩
  case openOp =>
    cases hq : s.opstep
    case retry => simp [State.controlLegal, hp, ho, hq] at h
    all_goals exact ⟨_, rfl⟩
  all_goals simp [State.controlLegal, hp, ho] at h

theorem State.selected_exists_exchanging (hp : s.phase.exchanging = true) (h : s.controlLegal = true) :
    ∃ i, s.selected = .ok i := by
  obtain ⟨-, hlink, hplace⟩ := (State.controlLegal_exchanging hp).1 h
  rcases Phase.exchanging_iff.1 hp with hp | hp | hp
  · rw [State.selected_sendingDigest hp]
    split
    · cases hq : s.pstep <;> cases s.abortReq <;> simp [State.placeLegal, hp, hq] at hplace ⊢
    · exact State.linkSelection_exists (by assumption) (by simpa [State.closing, hp] using hlink)
  · rw [State.selected_sendingLength hp]
    split
    · cases hq : s.pstep <;> cases s.abortReq <;> simp [State.placeLegal, hp, hq] at hplace ⊢
    · exact State.linkSelection_exists (by assumption) (by simpa [State.closing, hp] using hlink)
  · rw [State.selected_transfer hp]
    split
    · cases hq : s.pstep
      case boundary => cases s.complete <;> cases s.abortReq <;> exact ⟨_, rfl⟩
      case exit => cases s.flushDue <;> exact ⟨_, rfl⟩
      case gap | eval => simp [State.placeLegal, hp, hq] at hplace
      all_goals exact ⟨_, rfl⟩
    · exact State.linkSelection_exists (by assumption) (by simpa [State.closing, hp] using hlink)

/-- In a run something is selected. -/
theorem State.selected_exists (h : s.controlLegal = true) (hr : s.phase.atRest = false) : ∃ i, s.selected = .ok i := by
  cases hp : s.phase
  case opening => exact State.selected_exists_opening hp h
  case sendingDigest | sendingLength | transfer => exact State.selected_exists_exchanging (by simp [hp, Phase.exchanging]) h
  case digestConfirmed =>
    simp only [State.controlLegal, hp, Bool.and_eq_true, decide_eq_true_eq] at h
    obtain ⟨ho, -⟩ := h
    exact ⟨_, by rw [State.selected_digestConfirmed hp, if_pos ho]⟩
  case lengthConfirmed =>
    simp only [State.controlLegal, hp, Bool.and_eq_true, decide_eq_true_eq] at h
    obtain ⟨ho, -⟩ := h
    exact ⟨_, by rw [State.selected_lengthConfirmed hp, if_pos ho]⟩
  all_goals simp [hp, Phase.atRest] at hr

/-! ### The operands of a selected operation are in range -/

/-- HS_K is a chunk of the digest where a chunk is sent. -/
theorem State.Inv.digestFrame_exists (h : s.Inv) (hp : s.phase = .sendingDigest) (hq : s.pstep = .send) :
    ∃ f, s.digestFrame = some f := by
  have hk : s.hsK.toNat < 4 := by
    simpa [State.placeLegal, hp, hq] using ((State.controlLegal_exchanging (by simp [hp, Phase.exchanging])).1 h.control).2.2
  exact ⟨_, State.digestFrame_eq (k := ⟨_, hk⟩) rfl⟩

theorem State.dataFrame_exists {i : Nat} (hi : i < 2 ^ 26) (hlen : 7 * i < s.imgLen.toNat) : ∃ f, s.dataFrame i = some f := by
  simp only [State.dataFrame, if_pos hi, State.fetchBlock, if_pos hlen, Option.map_some, Option.some.injEq, exists_eq']

/-- A slot's candidate is below BLOCKCOUNT, so it is a block of the image and fits 26 bits. -/
theorem State.Inv.candidateFrame_exists (h : s.Inv) (hp : s.phase = .transfer) (hq : s.pstep = .send) :
    ∃ f, s.candidateFrame = some f := by
  have hsound := h.sound (by simp [hp, Phase.atRest])
  have hplace := ((State.controlLegal_exchanging (by simp [hp, Phase.exchanging])).1 h.control).2.2
  have hcand : s.candidate < s.blockcount.toNat := by
    have hsend : s.sendable = true := by simp only [State.placeLegal, hp, hq, Bool.and_eq_true] at hplace; exact hplace.2.2
    simpa [State.sendable] using hsend
  have hpos : 0 ≤ s.candidate := by have := h.wbase_ge; unfold State.candidate; omega
  have hlen := State.imgLen_le_of_configCheck hsound.config
  have hblocks := hsound.blocks
  unfold maxImageLen at hlen
  rw [State.candidateFrame, if_pos hpos]
  exact State.dataFrame_exists (by omega) (by omega)

/-! ### A selected operation goes on, whatever the environment answers -/

theorem goesOn_next (t : State) : goesOn (.next t) := ⟨t, rfl⟩

theorem goesOn_ite {c : Prop} [Decidable c] {o p : Host.Outcome State Fault Refusal} (ho : goesOn o) (hp : goesOn p) :
    goesOn (if c then o else p) := by
  split <;> assumption

theorem goesOn_andThen {o : Host.Outcome State Fault Refusal} {k : State → Host.Outcome State Fault Refusal} (ho : goesOn o)
    (hk : ∀ t, o = .next t → goesOn (k t)) : goesOn (andThen o k) := by
  obtain ⟨t, rfl⟩ := ho
  exact hk t rfl

theorem receiveFrame_goesOn (m : Message) (s : State) : goesOn (receiveFrame m s) := by
  unfold receiveFrame
  cases s.live <;> exact goesOn_ite (goesOn_next _) (goesOn_next _)

theorem exec_lsRecover_goesOn (ho : s.op = .openOp ∨ s.op = .sendOp ∨ s.op = .recvOp)
    (hq : s.opstep = .recClose ∨ s.opstep = .recBringup ∨ s.opstep = .recOpen) : goesOn (exec .lsRecover s) := by
  rcases hq with hq | hq | hq
  · cases hl : s.live with
    | none => exact ⟨s.channelLost, by rcases ho with ho | ho | ho <;> simp only [exec, execLsRecover, ho, hq, hl]⟩
    | some c =>
      have hx : exec .lsRecover s = portDone s (.closed c) State.channelLost := by
        rcases ho with ho | ho | ho <;> simp only [exec, execLsRecover, ho, hq, hl]
      exact hx ▸ awaitReply_goesOn _ _
  · have hx : exec .lsRecover s = portDone s (.broughtUp s.cfg.bus s.cfg.bitrate) fun s => { s with opstep := .recOpen } := by
      rcases ho with ho | ho | ho <;> simp only [exec, execLsRecover, ho, hq]
    exact hx ▸ awaitReply_goesOn _ _
  · exact exec_lsRecover_opens ho hq ▸ awaitReply_goesOn _ _

theorem exec_lsSend_goesOn (ho : s.op = .sendOp) (hq : s.opstep = .tryPort ∨ s.opstep = .retry) : goesOn (exec .lsSend s) := by
  rcases hq with hq | hq <;> simp only [exec, execLsSend, ho, hq] <;> cases s.live
  case inl.some | inr.some => exact awaitReply_goesOn _ _
  all_goals exact goesOn_next _

theorem exec_lsRecv_goesOn (ho : s.op = .recvOp) (hq : s.opstep = .tryPort) : goesOn (exec .lsRecv s) := by
  simp only [exec, execLsRecv, ho, hq]
  cases s.live with
  | none => exact goesOn_next _
  | some c => exact awaitReply_goesOn _ _

theorem exec_lsClose_goesOn (ho : s.op = .closeOp) : goesOn (exec .lsClose s) := by
  simp only [exec, execLsClose, ho]
  cases s.live with
  | none => exact goesOn_next _
  | some c => exact awaitReply_goesOn _ _

/-- THE SELECTED OPERATION GOES ON: its guard is the control state that selects it. -/
theorem State.Inv.exec_goesOn {i : Instr} (h : s.Inv) (hs : s.Selects i) : goesOn (exec i s) := by
  cases hs with
  | openCall hp ho => exact ⟨_, (exec_link_call ho).1⟩
  | openTry hp ho hq =>
    simp only [exec, execLsOpen, ho, hq]
    exact awaitReply_goesOn _ _
  | openRecover hp ho hq => exact exec_lsRecover_goesOn (.inl ho) hq
  | digestConfirmed hp ho => exact ⟨_, exec_hsEvalDigest_confirmed hp ho⟩
  | lengthConfirmed hp ho =>
    simp only [exec, execBteEnter, hp, ho]
    exact goesOn_next _
  | abort hp ho hq ha _ => exact ⟨_, exec_abortExit_closes hp ho hq ha⟩
  | digestBoundary hp ho hq ha => exact ⟨_, exec_hsDigestRound_begins hp ho hq ha⟩
  | digestSend hp ho hq =>
    obtain ⟨f, hf⟩ := h.digestFrame_exists hp hq
    simp only [exec, execHsDigestRound, hp, ho, hq, hf]
    exact goesOn_next _
  | digestGap hp ho hq =>
    simp only [exec, execHsDigestRound, hp, ho, hq]
    exact awaitReply_goesOn _ _
  | digestEval hp ho hq => exact ⟨_, exec_hsEvalDigest_eval hp ho hq⟩
  | lengthBoundary hp ho hq ha => exact ⟨_, exec_hsLengthRound_begins hp ho hq ha⟩
  | lengthSend hp ho hq => exact ⟨_, exec_hsLengthRound_sends hp ho hq⟩
  | lengthGap hp ho hq =>
    simp only [exec, execHsLengthRound, hp, ho, hq]
    exact awaitReply_goesOn _ _
  | lengthEval hp ho hq => exact ⟨_, exec_hsEvalLength_eval hp ho hq⟩
  | complete hp ho hq _ => exact ⟨_, (exec_engine_boundary hp ho hq).1⟩
  | window hp ho hq _ _ => exact ⟨_, (exec_engine_boundary hp ho hq).2.1⟩
  | slot hp ho hq =>
    obtain ⟨f, hf⟩ := h.candidateFrame_exists hp hq
    exact ⟨_, exec_bteWindow_sends hp ho hq hf⟩
  | report hp ho hq =>
    rw [exec_prReport hp ho hq]
    exact goesOn_ite (goesOn_next _) (goesOn_next _)
  | flush hp ho hq _ =>
    rw [exec_prFlush hp ho hq]
    exact goesOn_ite (goesOn_next _) (goesOn_next _)
  | exit hp ho hq hf => exact ⟨_, exec_bteExit_closes hp ho hq hf⟩
  | poll hp ho hq => exact ⟨_, exec_rxPoll_call ho hq⟩
  | send hp ho _ hq => exact exec_lsSend_goesOn ho hq
  | recv hp ho _ hq => exact exec_lsRecv_goesOn ho hq
  | sendRecover hp ho _ hq => exact exec_lsRecover_goesOn (.inr (.inl ho)) hq
  | recvRecover hp ho _ hq => exact exec_lsRecover_goesOn (.inr (.inr ho)) hq
  | close hp ho _ _ => exact exec_lsClose_goesOn ho

/-! ### The block's turn -/

/-- The internal computation goes on to a state of the invariant. -/
theorem State.Inv.settle (h : s.Inv) (n : Nat) : ∃ t, s.settle n = .next t ∧ t.Inv := by
  induction n generalizing s with
  | zero => exact ⟨s, rfl, h⟩
  | succ n ih =>
    cases hc : s.computing with
    | false => exact ⟨s, State.settle_of_not_computing hc, h⟩
    | true =>
      have hr : s.phase.atRest = false := by
        cases hr : s.phase.atRest with
        | false => rfl
        | true => simp [State.computing_atRest hr] at hc
      obtain ⟨i, hi⟩ := State.selected_exists h.control hr
      have hs := State.selects_of_selected hi
      obtain ⟨u, hu⟩ := h.exec_goesOn hs
      obtain ⟨t, ht, hinv⟩ := ih ((State.line_of_selects hs hu).inv h hr)
      exact ⟨t, by simp only [State.settle, hc, if_true, hi, hu, andThen, ht], hinv⟩

/-- What a running block fetches goes on. -/
theorem State.Inv.fetch_goesOn (h : s.Inv) (hr : s.phase.atRest = false) : ∃ i, s.blockFetch = .ok i ∧ goesOn (exec i s) := by
  have hfetch : ∃ i, s.blockFetch = .ok i := by
    obtain ⟨j, hj⟩ := State.selected_exists h.control hr
    unfold State.blockFetch
    repeat' split
    · exact ⟨_, rfl⟩
    all_goals exact ⟨j, hj⟩
  obtain ⟨i, hi⟩ := hfetch
  refine ⟨i, hi, ?_⟩
  rcases State.blockFetch_cases hi with hs | ⟨r, rest, f, -, -, -, hd⟩
  · exact h.exec_goesOn hs
  · exact exec_of_decodeFrame hd s ▸ receiveFrame_goesOn _ s

theorem State.Inv.serve_goesOn (h : s.Inv) : goesOn s.serve := by
  cases hr : s.phase.atRest with
  | true => exact ⟨_, State.serve_atRest hr⟩
  | false =>
    obtain ⟨i, hi, hgo⟩ := h.fetch_goesOn hr
    exact State.serve_running hr hi ▸ hgo

/-! ### The host's turn -/

theorem exec_command_goesOn {i : Instr} (hi : i = .start ∨ i = .abort) (s : State) : goesOn (exec i s) := by
  rcases hi with rfl | rfl <;> simp only [exec, execStart, execAbort]
  · cases s.configCheck <;> exact goesOn_ite (goesOn_next _) (goesOn_next _)
  · exact goesOn_ite (goesOn_next _) (goesOn_next _)

/-- A host access to what the spec gives the host. -/
def State.legalAccess (s : State) : HostAccess → Bool
  | .readNumber n => (HostReg.ofNumber n).isSome
  | .readImage a => decide (a.toNat < s.imgLen.toNat)
  | .strayWrite _ => false
  | .cmd _ | .write _ | .read _ => true

/-- A legal turn that is the host's is a legal access. -/
theorem State.legalAccess_of_legalTurn {a : HostAccess} {rest : List Turn} (hs : s.drawTurn.script = .host a :: rest)
    (h : s.legalTurn = true) : s.drawTurn.pop.legalAccess a = true := by
  have himg : s.drawTurn.pop.imgLen = s.imgLen := by rw [State.pop_imgLen, s.drawTurn_frame]
  unfold State.legalTurn at h
  unfold State.legalAccess
  rw [hs] at h
  rw [himg]
  cases a <;> exact h

theorem State.serveHost_goesOn {a : HostAccess} (h : s.legalAccess a = true) : goesOn (s.serveHost a) := by
  cases a with
  | cmd v =>
    cases hv : decodeCommand v with
    | ok i => simpa only [State.serveHost, hv] using exec_command_goesOn (decodeCommand_ok hv) s
    | error e =>
      simp only [State.serveHost, hv]
      exact goesOn_next s
  | write w => exact goesOn_next _
  | read r => exact goesOn_next _
  | readNumber n =>
    obtain ⟨r, hr⟩ := Option.isSome_iff_exists.1 h
    simp only [State.serveHost, hostAccess, hr]
    exact goesOn_next _
  | readImage x =>
    simp only [State.serveHost, hostAccess, if_pos (of_decide_eq_true h)]
    exact goesOn_next _
  | strayWrite n => cases h

end

/-- The turns drawn and taken off are no part of the invariant. -/
theorem State.Inv.withTurns {s : State} (h : s.Inv) (l : List Turn) (n : Nat) : ({ s with script := l, asked := n } : State).Inv :=
  { h with }

/-- Settles O50: the host's turn by its access, the reset at once, and the block's own through its internal computation to the
operation it fetches. -/
theorem noStopFromInv : Obligations.NoStopFromInv := by
  intro s h hlegal
  have hd : s.drawTurn.Inv := by rw [s.drawTurn_frame]; exact h.withTurns _ _
  have block {k : State → Host.Outcome State Fault Refusal} (hk : ∀ t : State, t.Inv → goesOn (k t)) :
      goesOn (andThen (s.drawTurn.settle settleSteps) k) := by
    obtain ⟨t, ht, hinv⟩ := hd.settle settleSteps
    exact goesOn_andThen ⟨t, ht⟩ fun u hu => hk u (by cases ht.symm.trans hu; exact hinv)
  have time : goesOn (if s.drawTurn.computing then andThen (s.drawTurn.settle settleSteps) fun t => .next t.pop
      else s.drawTurn.pop.giveTime) :=
    goesOn_ite (block fun t _ => goesOn_next _) (goesOn_ite (hd.withTurns _ _).serve_goesOn (goesOn_next _))
  show goesOn s.drawTurn.takeTurn
  unfold State.takeTurn
  split
  · rename_i a rest hs
    exact State.serveHost_goesOn (State.legalAccess_of_legalTurn hs hlegal)
  · exact goesOn_next _
  · exact time
  · exact time
  · exact block fun t ht => ht.serve_goesOn
  · exact block fun t ht => ht.serve_goesOn

end Sys2Proof.Machine
end

section
/-!
PROOFS. No outcome depends on a duration (O60): forgetting the durations before an operation and after it gives the same outcome.
-/
namespace Sys2Proof.Machine

/-! ### Durations forgotten -/

/-- An outcome with the durations of its next state forgotten. -/
def forgetOutcome : Host.Outcome State Fault Refusal → Host.Outcome State Fault Refusal
  | .next s => .next s.forgetDurations
  | .fault f => .fault f
  | .refused r => .refused r

theorem sameButDurations_iff {o p : Host.Outcome State Fault Refusal} :
    sameButDurations o p ↔ forgetOutcome o = forgetOutcome p := by
  cases o <;> cases p <;> simp [sameButDurations, forgetOutcome]

theorem HostValue.forget_forget (v : HostValue) : v.forget.forget = v.forget := by cases v <;> rfl

theorem Event.forget_forget (e : Event) : e.forget.forget = e.forget := by
  cases e
  case hostRead r v => exact congrArg (Event.hostRead r) v.forget_forget
  all_goals rfl

theorem Event.map_forget_forget (t : List Event) : (t.map Event.forget).map Event.forget = t.map Event.forget := by
  rw [List.map_map, show Event.forget ∘ Event.forget = Event.forget from funext Event.forget_forget]

theorem State.forget_forget (s : State) : s.forgetDurations.forgetDurations = s.forgetDurations := by
  simp only [State.forgetDurations, Event.map_forget_forget]

theorem forgetOutcome_forget (o : Host.Outcome State Fault Refusal) : forgetOutcome (forgetOutcome o) = forgetOutcome o := by
  cases o <;> simp only [forgetOutcome, State.forget_forget]

section
variable (s : State)

@[simp] theorem State.forgetDurations_phase : s.forgetDurations.phase = s.phase := rfl
@[simp] theorem State.forgetDurations_pstep : s.forgetDurations.pstep = s.pstep := rfl
@[simp] theorem State.forgetDurations_op : s.forgetDurations.op = s.op := rfl
@[simp] theorem State.forgetDurations_opstep : s.forgetDurations.opstep = s.opstep := rfl
@[simp] theorem State.forgetDurations_abortReq : s.forgetDurations.abortReq = s.abortReq := rfl
@[simp] theorem State.forgetDurations_script : s.forgetDurations.script = s.script := rfl
@[simp] theorem State.forgetDurations_loop : s.forgetDurations.loop = s.loop := rfl
@[simp] theorem State.forgetDurations_asked : s.forgetDurations.asked = s.asked := rfl
@[simp] theorem State.forgetDurations_live : s.forgetDurations.live = s.live := rfl
@[simp] theorem State.forgetDurations_receiving : s.forgetDurations.receiving = s.receiving := rfl
@[simp] theorem State.forgetDurations_computing : s.forgetDurations.computing = s.computing := rfl
@[simp] theorem State.forgetDurations_atEmit : s.forgetDurations.atEmit = s.atEmit := rfl
@[simp] theorem State.forgetDurations_selected : s.forgetDurations.selected = s.selected := rfl
@[simp] theorem State.forgetDurations_blockFetch : s.forgetDurations.blockFetch = s.blockFetch := rfl
@[simp] theorem State.forgetDurations_configCheck : s.forgetDurations.configCheck = s.configCheck := rfl
@[simp] theorem State.forgetDurations_digestSeen : s.forgetDurations.digestSeen = s.digestSeen := rfl
@[simp] theorem State.forgetDurations_lengthSeen : s.forgetDurations.lengthSeen = s.lengthSeen := rfl
@[simp] theorem State.forgetDurations_reportDue : s.forgetDurations.reportDue = s.reportDue := rfl
@[simp] theorem State.forgetDurations_flushDue : s.forgetDurations.flushDue = s.flushDue := rfl
@[simp] theorem State.forgetDurations_digestFrame : s.forgetDurations.digestFrame = s.digestFrame := rfl
@[simp] theorem State.forgetDurations_candidateFrame : s.forgetDurations.candidateFrame = s.candidateFrame := rfl
@[simp] theorem State.forgetDurations_fetchBlock (i : Nat) : s.forgetDurations.fetchBlock i = s.fetchBlock i := rfl

/-- Each of the three timeouts a receive can have is forgotten. -/
@[simp] theorem State.forgetDurations_recvTimeout : s.forgetDurations.recvTimeout = noDuration := by
  unfold State.recvTimeout
  repeat' split
  all_goals rfl

theorem State.forgetDurations_hostValue (r : HostReg) : s.forgetDurations.hostValue r = (s.hostValue r).forget := by
  cases r <;> rfl

end

/-! ### Updates of the state -/

/-- The update forgets no more and no less than the durations it was given. -/
def DurationBlind (k : State → State) : Prop := ∀ s, k s.forgetDurations = (k s).forgetDurations

theorem seekSlot_durationBlind : DurationBlind State.seekSlot := by
  intro s
  simp only [State.seekSlot, apply_ite State.forgetDurations]
  rfl

theorem slotDone_durationBlind : DurationBlind State.slotDone := by
  intro s
  simp only [State.slotDone, apply_ite State.forgetDurations, ← seekSlot_durationBlind _]
  rfl

theorem sendReturn_durationBlind : DurationBlind State.sendReturn := by
  intro s
  simp only [State.sendReturn, apply_ite State.forgetDurations]
  rfl

theorem recvNone_durationBlind : DurationBlind State.recvNone := by
  intro s
  simp only [State.recvNone, apply_ite State.forgetDurations, ← slotDone_durationBlind _]
  rfl

theorem closeReturn_durationBlind : DurationBlind State.closeReturn := by
  intro s
  simp only [State.closeReturn, apply_ite State.forgetDurations]
  rfl

theorem digestGapDone_durationBlind : DurationBlind State.digestGapDone := by
  intro s
  simp only [State.digestGapDone, apply_ite State.forgetDurations]
  rfl

theorem takeException_durationBlind (x : ErrorCause) : DurationBlind (takeException x) := by
  intro s
  cases x <;> rfl

theorem returnFromRecovery_durationBlind (ok : Bool) : DurationBlind (returnFromRecovery ok) := by
  intro s
  unfold returnFromRecovery
  rw [s.forgetDurations_op]
  cases s.op <;> cases ok
  case sendOp.false => exact sendReturn_durationBlind s
  case recvOp.false | recvOp.true => exact recvNone_durationBlind s
  all_goals rfl

theorem consume_durationBlind (m : Message) : DurationBlind (State.consume m) := by
  intro s
  cases m
  case progress rd rl wr idx =>
    simp only [State.consume, s.forgetDurations_phase]
    cases s.phase <;> rfl
  all_goals rfl

theorem accept_durationBlind (c : Handle) (m : Message) : DurationBlind (State.accept c m) := by
  intro s
  unfold State.accept
  rw [← consume_durationBlind, s.forgetDurations_recvTimeout]
  rfl

theorem dropReply_durationBlind : DurationBlind State.dropReply := by
  intro s
  unfold State.dropReply
  rw [s.forgetDurations_script]
  split <;> rfl

theorem drawTurn_durationBlind : DurationBlind State.drawTurn := by
  intro s
  cases hs : s.script <;>
    simp only [State.drawTurn, s.forgetDurations_script, s.forgetDurations_loop, s.forgetDurations_asked, hs]
  all_goals
    repeat' split
    all_goals rfl

/-! ### Requests -/

/-- The operation's outcome, but for durations, is that of the state without them. -/
def DurationBlindOutcome (o : State → Host.Outcome State Fault Refusal) : Prop :=
  ∀ s, o s.forgetDurations = forgetOutcome (o s)

section
variable {s : State}

theorem awaitReply_forget {k k' : Reply → State → State}
    (hk : ∀ r u, k' r (State.forgetDurations u) = (k r u).forgetDurations) :
    awaitReply s.forgetDurations k' = forgetOutcome (awaitReply s k) := by
  unfold awaitReply
  rw [s.forgetDurations_script]
  split
  · exact congrArg _ (hk _ s.pop)
  all_goals rfl

theorem portOpen_forget {ok fail : State → State} (hok : DurationBlind ok) (hfail : DurationBlind fail) :
    portOpen s.forgetDurations ok fail = forgetOutcome (portOpen s ok fail) := by
  refine awaitReply_forget fun r u => ?_
  cases r.opened with
  | some c => exact hok { u with chan := some c, link := .up, trace := .opened u.cfg.bus u.cfg.bitrate c :: u.trace }
  | none => exact hfail (u.log (.openFailed u.cfg.bus u.cfg.bitrate))

theorem portSend_forget {c : Handle} {ok fail : State → State} (hok : DurationBlind ok) (hfail : DurationBlind fail) :
    portSend s.forgetDurations c ok fail = forgetOutcome (portSend s c ok fail) := by
  refine awaitReply_forget fun r u => ?_
  cases r.sent with
  | true => exact hok (u.log (.sent c u.txf true))
  | false => exact hfail (u.log (.sent c u.txf false))

theorem portRecv_forget {c : Handle} {got : RxFrame → State → State} {nothing fail : State → State}
    (hgot : ∀ f, DurationBlind (got f)) (hnothing : DurationBlind nothing) (hfail : DurationBlind fail) :
    portRecv s.forgetDurations c got nothing fail = forgetOutcome (portRecv s c got nothing fail) := by
  refine awaitReply_forget fun r u => ?_
  simp only [u.forgetDurations_recvTimeout]
  cases r.received with
  | frame f => exact hgot f u
  | nothing => exact hnothing (u.log (.received c u.recvTimeout .nothing))
  | err => exact hfail (u.log (.received c u.recvTimeout .err))

theorem portDone_forget {e : Event} {k : State → State} (hk : DurationBlind k) :
    portDone s.forgetDurations e.forget k = forgetOutcome (portDone s e k) :=
  awaitReply_forget fun _ u => hk (u.log e)

end

theorem receiveFrame_durationBlind (m : Message) : DurationBlindOutcome (receiveFrame m) := by
  intro s
  unfold receiveFrame
  rw [s.forgetDurations_receiving, s.forgetDurations_live, dropReply_durationBlind s, apply_ite forgetOutcome]
  cases s.live with
  | none => rfl
  | some c =>
    simp only [accept_durationBlind c m s.dropReply]
    rfl

/-! ### The operations that make requests -/

theorem execLsOpen_durationBlind : DurationBlindOutcome execLsOpen := by
  intro s
  unfold execLsOpen
  rw [s.forgetDurations_op, s.forgetDurations_opstep]
  split
  · rfl
  · exact portOpen_forget (fun _ => rfl) fun _ => rfl
  · rfl

theorem execLsSend_durationBlind : DurationBlindOutcome execLsSend := by
  intro s
  unfold execLsSend
  rw [s.forgetDurations_op, s.forgetDurations_opstep, s.forgetDurations_live]
  split
  · rfl
  · cases s.live with
    | some c => exact portSend_forget sendReturn_durationBlind (takeException_durationBlind _)
    | none => rfl
  · cases s.live with
    | some c => exact portSend_forget sendReturn_durationBlind sendReturn_durationBlind
    | none => exact congrArg _ (sendReturn_durationBlind s)
  · rfl

theorem execLsRecv_durationBlind : DurationBlindOutcome execLsRecv := by
  intro s
  unfold execLsRecv
  rw [s.forgetDurations_op, s.forgetDurations_opstep, s.forgetDurations_live]
  split
  · rfl
  · cases s.live with
    | some c =>
      exact portRecv_forget (fun f u => accept_durationBlind c (decodeMessage u.cfg.baseId f) u) recvNone_durationBlind
        (takeException_durationBlind _)
    | none => rfl
  · rfl

theorem execLsRecover_durationBlind : DurationBlindOutcome execLsRecover := by
  intro s
  unfold execLsRecover
  rw [s.forgetDurations_op, s.forgetDurations_opstep, s.forgetDurations_live]
  split
  case h_1 | h_2 | h_3 =>
    cases s.live with
    | some c => exact portDone_forget (e := .closed c) fun _ => rfl
    | none => rfl
  case h_4 | h_5 | h_6 => exact portDone_forget (e := .broughtUp s.cfg.bus s.cfg.bitrate) fun _ => rfl
  case h_7 | h_8 | h_9 => exact portOpen_forget (returnFromRecovery_durationBlind _) (returnFromRecovery_durationBlind _)
  case h_10 => rfl

theorem execLsClose_durationBlind : DurationBlindOutcome execLsClose := by
  intro s
  unfold execLsClose
  rw [s.forgetDurations_op, s.forgetDurations_live]
  cases s.op with
  | noOp => rfl
  | closeOp =>
    cases s.live with
    | some c => exact portDone_forget (e := .closed c) closeReturn_durationBlind
    | none => exact congrArg _ (closeReturn_durationBlind s)
  | openOp | sendOp | recvOp => rfl

theorem execHsDigestRound_durationBlind : DurationBlindOutcome execHsDigestRound := by
  intro s
  unfold execHsDigestRound
  rw [s.forgetDurations_phase, s.forgetDurations_op, s.forgetDurations_pstep, s.forgetDurations_abortReq,
    s.forgetDurations_digestFrame]
  split
  · cases s.abortReq <;> rfl
  · cases s.digestFrame <;> rfl
  · exact portDone_forget (e := .delayed s.cfg.tDigestGap) digestGapDone_durationBlind
  all_goals rfl

theorem execHsLengthRound_durationBlind : DurationBlindOutcome execHsLengthRound := by
  intro s
  unfold execHsLengthRound
  rw [s.forgetDurations_phase, s.forgetDurations_op, s.forgetDurations_pstep, s.forgetDurations_abortReq]
  split
  · cases s.abortReq <;> rfl
  · rfl
  · exact portDone_forget (e := .delayed s.cfg.tLengthGap) fun _ => rfl
  all_goals rfl

/-! ### Every operation -/

theorem execStart_durationBlind : DurationBlindOutcome execStart := by
  intro s
  unfold execStart
  rw [s.forgetDurations_phase, s.forgetDurations_configCheck, apply_ite forgetOutcome]
  cases s.configCheck <;> rfl

theorem execBteWindow_durationBlind : DurationBlindOutcome execBteWindow := by
  intro s
  unfold execBteWindow
  rw [s.forgetDurations_phase, s.forgetDurations_op, s.forgetDurations_pstep, s.forgetDurations_candidateFrame]
  split
  · exact congrArg _ (seekSlot_durationBlind { s with wbase := s.cursor, wsent := false, wSlot := 0 })
  · cases s.candidateFrame <;> rfl
  all_goals rfl

theorem execBlkFetch_durationBlind (i : BitVec 32) : DurationBlindOutcome (execBlkFetch i) := by
  intro s
  unfold execBlkFetch
  rw [s.forgetDurations_fetchBlock]
  cases s.fetchBlock i.toNat <;> rfl

/-- R270: every operation, by what it makes of the state. -/
theorem exec_durationBlind (i : Instr) : DurationBlindOutcome (exec i) := by
  cases i
  case data | infoLen | infoDig | progress => exact receiveFrame_durationBlind _
  case blockCount | encInfoLen | encProgress | demux | decode | decData | decInfo | decProgress | curUpdate | configCheck =>
    exact fun _ => rfl
  case start => exact execStart_durationBlind
  case lsOpen => exact execLsOpen_durationBlind
  case lsSend => exact execLsSend_durationBlind
  case lsRecv => exact execLsRecv_durationBlind
  case lsRecover => exact execLsRecover_durationBlind
  case lsClose => exact execLsClose_durationBlind
  case hsDigestRound => exact execHsDigestRound_durationBlind
  case hsLengthRound => exact execHsLengthRound_durationBlind
  case bteWindow => exact execBteWindow_durationBlind
  case blkFetch i => exact execBlkFetch_durationBlind i
  case abort | encData | encInfoDig =>
    intro s
    simp only [exec, execAbort, execEncData, execEncInfoDig, apply_ite forgetOutcome]
    rfl
  case rxPoll | bteEnter | abortExit =>
    intro s
    simp only [exec, execRxPoll, execBteEnter, execAbortExit, State.forgetDurations_phase, State.forgetDurations_op,
      State.forgetDurations_pstep, State.forgetDurations_abortReq]
    split <;> rfl
  case hsEvalDigest | hsEvalLength | bteExit | prReport | prFlush =>
    intro s
    simp only [exec, execHsEvalDigest, execHsEvalLength, execBteExit, execPrReport, execPrFlush, State.forgetDurations_phase,
      State.forgetDurations_op, State.forgetDurations_pstep]
    split
    any_goals rw [apply_ite forgetOutcome]
    all_goals rfl

/-! ### A step -/

theorem andThen_forget {o : Host.Outcome State Fault Refusal} {k : State → Host.Outcome State Fault Refusal}
    (hk : DurationBlindOutcome k) : andThen (forgetOutcome o) k = forgetOutcome (andThen o k) := by
  cases o with
  | next t => exact hk t
  | fault f => rfl
  | refused r => rfl

theorem settle_durationBlind (n : Nat) : DurationBlindOutcome (State.settle n) := by
  induction n with
  | zero => exact fun _ => rfl
  | succ n ih =>
    intro s
    unfold State.settle
    rw [s.forgetDurations_computing, s.forgetDurations_selected]
    split
    · cases s.selected with
      | error e => rfl
      | ok i => 
        simp only [exec_durationBlind i s]
        exact andThen_forget ih
    · rfl

theorem serve_durationBlind : DurationBlindOutcome State.serve := by
  intro s
  unfold State.serve
  rw [s.forgetDurations_phase, s.forgetDurations_blockFetch, dropReply_durationBlind s]
  split
  · rfl
  · cases s.blockFetch with
    | error e => rfl
    | ok i => exact exec_durationBlind i s

theorem giveTime_durationBlind : DurationBlindOutcome State.giveTime := by
  intro s
  unfold State.giveTime
  rw [s.forgetDurations_atEmit, serve_durationBlind, apply_ite forgetOutcome]
  rfl

/-- A host write of a duration register writes what is forgotten. -/
theorem State.applyWrite_forget (w : HostWrite) (s : State) :
    (s.forgetDurations.applyWrite w).forgetDurations = (s.applyWrite w).forgetDurations := by
  cases w <;> simp only [State.applyWrite, State.forgetDurations, Event.map_forget_forget]

theorem State.hostWrite_forget (w : HostWrite) (s : State) :
    (s.forgetDurations.hostWrite w).forgetDurations = (s.hostWrite w).forgetDurations := by
  unfold State.hostWrite
  rw [s.forgetDurations_phase]
  cases s.phase.atRest with
  | true => exact s.applyWrite_forget w
  | false => exact s.forget_forget

/-- The value read of a duration register is forgotten in the record. -/
theorem State.logRead_forget (r : HostReg) (s : State) :
    State.forgetDurations (s.forgetDurations.log (.hostRead r (s.forgetDurations.hostValue r))) =
      (s.log (.hostRead r (s.hostValue r))).forgetDurations := by
  rw [s.forgetDurations_hostValue]
  exact State.forget_forget (s.log (.hostRead r (s.hostValue r)))

theorem hostAccess_forget (a : HostAccess) (s : State) :
    forgetOutcome (hostAccess a s.forgetDurations) = forgetOutcome (hostAccess a s) := by
  cases a with
  | cmd v => exact congrArg Host.Outcome.next s.forget_forget
  | write w => exact congrArg Host.Outcome.next (s.hostWrite_forget w)
  | read r => exact congrArg Host.Outcome.next (s.logRead_forget r)
  | readNumber n =>
    simp only [hostAccess]
    cases HostReg.ofNumber n with
    | some r => exact congrArg Host.Outcome.next (s.logRead_forget r)
    | none => rfl
  | readImage x =>
    simp only [hostAccess, apply_ite forgetOutcome]
    exact if_congr Iff.rfl (congrArg Host.Outcome.next (State.forget_forget (s.log (.hostReadImage x (s.imgByte x.toNat))))) rfl
  | strayWrite n => rfl

theorem State.hardReset_forget (s : State) : s.forgetDurations.hardReset.forgetDurations = s.hardReset.forgetDurations := by
  simp only [State.hardReset, State.forgetDurations, List.map_cons, Event.map_forget_forget]

theorem DurationBlindOutcome.forget {o : State → Host.Outcome State Fault Refusal} (h : DurationBlindOutcome o) (s : State) :
    forgetOutcome (o s.forgetDurations) = forgetOutcome (o s) := by
  rw [h s, forgetOutcome_forget]

theorem State.serveHost_forget (a : HostAccess) (s : State) :
    forgetOutcome (s.forgetDurations.serveHost a) = forgetOutcome (s.serveHost a) := by
  cases a with
  | cmd v =>
    simp only [State.serveHost]
    cases decodeCommand v with
    | ok i => exact (exec_durationBlind i).forget s
    | error e => exact hostAccess_forget (.cmd v) s
  | write w => exact hostAccess_forget (.write w) s
  | read r => exact hostAccess_forget (.read r) s
  | readNumber n => exact hostAccess_forget (.readNumber n) s
  | readImage x => exact hostAccess_forget (.readImage x) s
  | strayWrite n => exact hostAccess_forget (.strayWrite n) s

/-- Only a reset and a host write give the duration registers new values. -/
theorem State.takeTurn_forget (s : State) : forgetOutcome s.forgetDurations.takeTurn = forgetOutcome s.takeTurn := by
  have hpop : s.forgetDurations.pop = s.pop.forgetDurations := rfl
  have time : DurationBlindOutcome fun s =>
      if s.computing then andThen (s.settle settleSteps) fun t => .next t.pop else s.pop.giveTime := by
    intro s
    have hpop : DurationBlindOutcome fun t => .next t.pop := fun _ => rfl
    simp only [settle_durationBlind settleSteps s, andThen_forget hpop, s.forgetDurations_computing, apply_ite forgetOutcome]
    exact if_congr Iff.rfl rfl (giveTime_durationBlind s.pop)
  have block : DurationBlindOutcome fun s => andThen (s.settle settleSteps) State.serve := by
    intro s
    simp only [settle_durationBlind settleSteps s, andThen_forget serve_durationBlind]
  unfold State.takeTurn
  rw [s.forgetDurations_script, hpop]
  split
  · exact State.serveHost_forget _ _
  · exact congrArg Host.Outcome.next s.pop.hardReset_forget
  · exact time.forget s
  · exact time.forget s
  · exact block.forget s
  · exact block.forget s

/-- Settles O60: the outcome of each of the two steps is, but for durations, that of the state both forget to. -/
theorem durationsDecideNothing : Obligations.DurationsDecideNothing := by
  intro s t h
  have hstep (u : State) : forgetOutcome (step u) = forgetOutcome (step u.forgetDurations) := by
    rw [step, step, stepOnce, stepOnce, drawTurn_durationBlind, State.takeTurn_forget]
  rw [sameButDurations_iff, hstep s, hstep t, h]

end Sys2Proof.Machine
end

section
/-!
PROOFS. The exceptions: who writes ERR, the causes it can hold, and what follows each (O12, O21, O29, O33, O37, O56).
-/
namespace Sys2Proof.Machine

/-! ### ERR after each named update (60_exceptions.md R252) -/

theorem State.err_portBlind : PortBlind State.err := fun _ _ _ _ _ => rfl

@[simp] theorem State.seekSlot_err (s : State) : s.seekSlot.err = s.err := by rw [s.seekSlot_frame]

@[simp] theorem State.recvNone_err (s : State) : s.recvNone.err = s.err := by rw [s.recvNone_frame]

@[simp] theorem State.sendReturn_err (s : State) : s.sendReturn.err = s.err := by rw [s.sendReturn_frame]

@[simp] theorem State.closeReturn_err (s : State) : s.closeReturn.err = s.err := by
  rcases s.closeReturn_cases with ⟨-, -, e⟩ | ⟨-, e⟩ <;> rw [e]

@[simp] theorem State.digestGapDone_err (s : State) : s.digestGapDone.err = s.err := by
  rcases s.digestGapDone_cases with ⟨-, e⟩ | ⟨-, e⟩ <;> rw [e]

@[simp] theorem State.accept_err (c : Handle) (m : Message) (s : State) : (s.accept c m).err = s.err := by
  unfold State.accept
  rcases State.consume_cases m
    { s with op := .noOp, pstep := .rxDrain, trace := .received c s.recvTimeout .frame :: s.trace } with
    ⟨_, _, _, _, -, -, e⟩ | ⟨_, _, _, _, -, -, e⟩ | e <;> rw [e]

/-- A recovery records an error only where it ends the run. -/
theorem returnFromRecovery_err (ok : Bool) (s : State) :
    (returnFromRecovery ok s).err = s.err ∨
      (returnFromRecovery ok s).phase = .linkFailed ∧ (returnFromRecovery ok s).err = 0x11#8 := by
  rcases returnFromRecovery_cases ok s with ⟨-, -, e⟩ | ⟨-, -, e⟩ | ⟨-, -, e⟩ | ⟨-, -, e⟩ | ⟨-, e⟩ | ⟨-, e⟩ <;> rw [e]
  · exact .inl rfl
  · exact .inr ⟨rfl, rfl⟩
  · exact .inl rfl
  · exact .inl s.sendReturn_err
  · exact .inl s.recvNone_err
  · exact .inl rfl

/-! ### Who writes ERR -/

section
variable {s t : State}

/-- START clears ERR, or records the cause of the check that failed. -/
theorem exec_start_err (he : exec .start s = .next t) :
    t.err = s.err ∨ t.phase = .opening ∧ t.err = 0 ∨ t.phase = .cfgError ∧ ∃ c, t.err = errCode (.config c) := by
  cases hr : s.phase.atRest with
  | false => cases (exec_start_running hr).symm.trans he; exact .inl rfl
  | true =>
    cases hc : s.configCheck with
    | none => cases (exec_start_passed hr hc).symm.trans he; exact .inr (.inl ⟨rfl, rfl⟩)
    | some c => cases (exec_start_failed hr hc).symm.trans he; exact .inr (.inr ⟨rfl, c, rfl⟩)

/-- LS.RECOVER records the failed opening. -/
theorem exec_lsRecover_err (he : exec .lsRecover s = .next t) : t.err = s.err ∨ t.phase = .linkFailed ∧ t.err = 0x11#8 := by
  have hb := State.err_portBlind
  simp only [exec, execLsRecover] at he
  split at he
  case h_1 | h_2 | h_3 =>
    split at he
    · exact .inl (portDone_keeps hb he fun _ => rfl)
    · cases he; exact .inl rfl
  case h_4 | h_5 | h_6 => exact .inl (portDone_keeps hb he fun _ => rfl)
  case h_7 | h_8 | h_9 =>
    rcases portOpen_cases he with rfl | ⟨r, rest, -, ⟨c, -, rfl⟩ | ⟨-, rfl⟩⟩
    · exact .inl rfl
    · exact returnFromRecovery_err _ _
    · exact returnFromRecovery_err _ _
  case h_10 => cases he

/-- The other operations of the link supervisor start a recovery on an error and record none. -/
theorem exec_link_err {i : Instr} (hi : i ∈ [.lsOpen, .lsSend, .lsRecv, .lsClose]) (he : exec i s = .next t) : t.err = s.err := by
  have hb := State.err_portBlind
  simp only [List.mem_cons, List.not_mem_nil, or_false] at hi
  rcases hi with rfl | rfl | rfl | rfl
  · simp only [exec, execLsOpen] at he
    split at he
    · cases he; rfl
    · exact portOpen_keeps hb he (fun _ => rfl) fun _ => rfl
    · cases he
  · simp only [exec, execLsSend] at he
    repeat' split at he
    · cases he; rfl
    · exact portSend_keeps hb he State.sendReturn_err fun _ => rfl
    · cases he; rfl
    · exact portSend_keeps hb he State.sendReturn_err State.sendReturn_err
    · cases he; exact s.sendReturn_err
    · cases he
  · simp only [exec, execLsRecv] at he
    repeat' split at he
    · cases he; rfl
    · exact portRecv_keeps hb he (fun _ u => u.accept_err _ _) State.recvNone_err fun _ => rfl
    · cases he; rfl
    · cases he
  · simp only [exec, execLsClose] at he
    repeat' split at he
    · cases he; rfl
    · exact portDone_keeps hb he State.closeReturn_err
    · cases he; exact s.closeReturn_err
    all_goals cases he

/-- Every operation but START and LS.RECOVER leaves ERR. -/
theorem exec_err {i : Instr} (hstart : i ≠ .start) (hrec : i ≠ .lsRecover) (he : exec i s = .next t) : t.err = s.err := by
  have hb := State.err_portBlind
  cases i
  case start => exact absurd rfl hstart
  case lsRecover => exact absurd rfl hrec
  case data | infoLen | infoDig | progress => exact receiveFrame_keeps hb he State.accept_err
  case lsOpen | lsSend | lsRecv | lsClose => exact exec_link_err (by simp) he
  case blockCount | encInfoLen | encProgress | demux | decode | decData | decInfo | decProgress | curUpdate | configCheck =>
    cases he; rfl
  case hsDigestRound =>
    simp only [exec, execHsDigestRound] at he
    repeat' split at he
    case h_3 => exact portDone_keeps hb he State.digestGapDone_err
    all_goals cases he
    all_goals rfl
  case hsLengthRound =>
    simp only [exec, execHsLengthRound] at he
    repeat' split at he
    case h_3 => exact portDone_keeps hb he fun _ => rfl
    all_goals cases he
    all_goals rfl
  case bteWindow =>
    simp only [exec, execBteWindow] at he
    repeat' split at he
    case h_1 => cases he; exact State.seekSlot_err _
    all_goals cases he
    all_goals rfl
  case abort | blkFetch | encData | encInfoDig | rxPoll | hsEvalDigest | hsEvalLength | bteEnter | bteExit | prReport | prFlush |
      abortExit =>
    simp only [exec, execAbort, execBlkFetch, execEncData, execEncInfoDig, execRxPoll, execHsEvalDigest, execHsEvalLength,
      execBteEnter, execBteExit, execPrReport, execPrFlush, execAbortExit] at he
    repeat' split at he
    all_goals cases he
    all_goals rfl

end

/-- The codes of the seven causes (R251). -/
theorem errCode_config_range (c : ConfigCause) :
    0x31 ≤ (errCode (.config c)).toNat ∧ (errCode (.config c)).toNat ≤ 0x37 := by
  cases c <;> decide

/-- Settles O56: START and LS.RECOVER are the only writers of ERR. -/
theorem errWrittenOnlyAtRunEnds : Obligations.ErrWrittenOnlyAtRunEnds := by
  intro i s t he hne
  by_cases hstart : i = .start
  · subst hstart
    rcases exec_start_err he with h | ⟨hp, h⟩ | ⟨hp, c, h⟩
    · exact absurd h hne
    · exact .inl ⟨rfl, hp, h⟩
    · exact .inr (.inl ⟨rfl, hp, h ▸ errCode_config_range c⟩)
  · by_cases hrec : i = .lsRecover
    · subst hrec
      exact .inr (.inr ⟨rfl, (exec_lsRecover_err he).resolve_left hne⟩)
    · exact absurd (exec_err hstart hrec he) hne

/-! ### CHECK_MISMATCH (R253) -/

theorem decodeInfoFields_ne_checkMismatch (p : Payload) : decodeInfoFields p ≠ .decodeError .checkMismatch := by
  simp only [decodeInfoFields]
  repeat' split
  all_goals simp

/-- The whole frame's decoder adds the length to what the field decoders raise. -/
theorem decodeMessage_ne_checkMismatch (base : Ident) (f : RxFrame) : decodeMessage base f ≠ .decodeError .checkMismatch := by
  unfold decodeMessage
  repeat' split
  case h_3.isTrue => exact decodeInfoFields_ne_checkMismatch f.payload
  all_goals simp [decodeDataFields, decodeProgressFields]

/-- Settles O12: no decoder's answers include the cause, and its code is none of those ERR is written with. -/
theorem checkMismatchNeverRaised : Obligations.CheckMismatchNeverRaised := by
  refine ⟨decodeMessage_ne_checkMismatch, decodeInfoFields_ne_checkMismatch, fun id p => by simp [decodeDataFields],
    fun p => by simp [decodeProgressFields], fun i s t he hne hcode => ?_⟩
  rcases errWrittenOnlyAtRunEnds i s t he hne with ⟨-, -, h⟩ | ⟨-, -, h, -⟩ | ⟨-, -, h⟩ <;> simp [hcode] at h

/-! ### A START that fails its check (R257) -/

/-- The code of a cause is 0x30 and its place in the table of R232, counted from 1. -/
theorem errCode_config {n : Nat} {c : ConfigCause} (h : configOrder[n]? = some c) :
    errCode (.config c) = 0x30#8 + BitVec.ofNat 8 (n + 1) := by
  obtain ⟨hn, rfl⟩ := List.getElem?_eq_some_iff.1 h
  change n < 7 at hn
  interval_cases n <;> rfl

/-- The check that fails with none before it failing is the one CONFIG_CHECK finds. -/
theorem State.configCheck_eq_some {s : State} {n : Nat} {c : ConfigCause} (hn : configOrder[n]? = some c)
    (hc : configFails s c = true) (hfirst : ∀ m d, m < n → configOrder[m]? = some d → configFails s d = false) :
    s.configCheck = some c := by
  obtain ⟨hlt, rfl⟩ := List.getElem?_eq_some_iff.1 hn
  rw [State.configCheck_eq_find, List.find?_eq_some_iff_getElem]
  refine ⟨hc, n, hlt, rfl, fun m hm => ?_⟩
  simp [hfirst m _ hm (List.getElem?_eq_getElem (hm.trans hlt))]

/-- Settles O21: a fresh run, ended at once with the code of the check's place in the table. -/
theorem startRefusedByConfiguration : Obligations.StartRefusedByConfiguration := by
  intro s n c hr hn hc hfirst
  refine ⟨s.txf, s.fresh, ?_⟩
  rw [exec_start_failed hr (State.configCheck_eq_some hn hc hfirst), takeException_config, errCode_config hn]
  rfl

/-! ### Frames that are dropped (R256) -/

/-- What is no PROGRESS is consumed by being dropped. -/
theorem State.consume_dropped {m : Message} (hm : ∀ rd rl wr idx, m ≠ .progress rd rl wr idx) (s : State) : s.consume m = s := by
  rcases s.consume_cases m with ⟨rd, rl, wr, idx, h, -⟩ | ⟨rd, rl, wr, idx, h, -⟩ | h
  · exact absurd h (hm rd rl wr idx)
  · exact absurd h (hm rd rl wr idx)
  · exact h

theorem State.accept_dropped {m : Message} (hm : ∀ rd rl wr idx, m ≠ .progress rd rl wr idx) (c : Handle) (s : State) :
    s.accept c m = { s with op := .noOp, pstep := .rxDrain, trace := .received c s.recvTimeout .frame :: s.trace } :=
  State.consume_dropped hm _

/-- LS.RECV accepts the message of the frame that answers it. -/
theorem exec_lsRecv_frame {s : State} {c : Handle} {r : Reply} {rest : List Turn} {f : RxFrame} (hrecv : s.receiving = true)
    (hl : s.live = some c) (hs : s.script = .reply r :: rest) (hf : r.received = .frame f) :
    exec .lsRecv s = .next (State.accept c (decodeMessage s.cfg.baseId f) { s with script := rest }) := by
  obtain ⟨-, ho, hq, -, -⟩ := State.receiving_iff.1 hrecv
  simp only [exec, execLsRecv, ho, hq, hl, portRecv, awaitReply_reply _ hs, hf]

/-- Settles O29: the frame is accepted, and its message dropped. -/
theorem otherFramesAreDropped : Obligations.OtherFramesAreDropped := by
  intro s c r rest hrecv hc hs
  have received (m : Message) (hm : ∀ rd rl wr idx, m ≠ .progress rd rl wr idx) :=
    (receiveFrame_answered hrecv hc hs m).trans (congrArg _ (State.accept_dropped hm c _))
  refine ⟨fun i d => received (.data i d) (by simp), fun n => received (.infoLen n) (by simp),
    fun k g => received (.infoDig k g) (by simp), fun f hf hm => ?_⟩
  rw [exec_lsRecv_frame hrecv (State.live_of_receiving hrecv hc) hs hf, State.accept_dropped hm]
  rfl

/-! ### The end of a recovery inside LS.OPEN (R254) -/

theorem returnFromRecovery_open {s : State} (ho : s.op = .openOp) (ok : Bool) :
    returnFromRecovery ok s = if ok then s.openReturn else takeException .linkOpenFailed s := by
  simp only [returnFromRecovery, ho]

/-- Settles O33: the opening ends with the recovery's result. -/
theorem recoveryInsideOpen : Obligations.RecoveryInsideOpen := by
  intro s r rest _ ho hq hs
  have hopens := exec_lsRecover_opens (.inl ho) hq
  refine ⟨fun c hr => ?_, fun hr => ?_⟩
  · rw [hopens, portOpen_opened hs hr, returnFromRecovery_open (by exact ho)]
    rfl
  · rw [hopens, portOpen_failed hs hr, returnFromRecovery_open (by exact ho)]
    rfl

/-! ### Waiting (R274) -/

section
variable {s : State}

theorem exec_lsRecover_waits (h : s.unanswered) (ho : s.op = .openOp ∨ s.op = .sendOp ∨ s.op = .recvOp)
    (hq : s.opstep = .recBringup ∨ s.opstep = .recOpen ∨ s.opstep = .recClose ∧ s.live.isSome = true) :
    exec .lsRecover s = .next s := by
  rcases hq with hq | hq | ⟨hq, hl⟩
  · rcases ho with ho | ho | ho <;> simp only [exec, execLsRecover, ho, hq] <;> exact awaitReply_waits _ h
  · exact (exec_lsRecover_opens ho hq).trans (awaitReply_waits _ h)
  · obtain ⟨c, hc⟩ := Option.isSome_iff_exists.1 hl
    rcases ho with ho | ho | ho <;> simp only [exec, execLsRecover, ho, hq, hc] <;> exact awaitReply_waits _ h

theorem exec_lsSend_waits (h : s.unanswered) {c : Handle} (hl : s.live = some c) (ho : s.op = .sendOp)
    (hq : s.opstep = .tryPort ∨ s.opstep = .retry) : exec .lsSend s = .next s := by
  rcases hq with hq | hq <;> simp only [exec, execLsSend, ho, hq, hl] <;> exact awaitReply_waits _ h

theorem exec_lsRecv_waits (h : s.unanswered) {c : Handle} (hl : s.live = some c) (ho : s.op = .recvOp)
    (hq : s.opstep = .tryPort) : exec .lsRecv s = .next s := by
  simp only [exec, execLsRecv, ho, hq, hl]
  exact awaitReply_waits _ h

theorem exec_lsClose_waits (h : s.unanswered) {c : Handle} (hl : s.live = some c) (ho : s.op = .closeOp) :
    exec .lsClose s = .next s := by
  simp only [exec, execLsClose, ho, hl]
  exact awaitReply_waits _ h

end

/-- Settles O37: each request is one wait for an answer. -/
theorem outstandingRequestWaits : Obligations.OutstandingRequestWaits := by
  intro s h
  refine ⟨fun ho hq => ?opening, fun ho hq => ?recovery, fun hu hsome => ?linked,
    fun ho hq => ⟨fun hp => ?digest, fun hp => ?length⟩⟩
  case opening =>
    simp only [exec, execLsOpen, ho, hq]
    exact awaitReply_waits _ h
  case recovery =>
    refine exec_lsRecover_waits h ho (hq.imp_right (Or.imp_right ?_))
    rintro ⟨hq, hu, hsome⟩
    obtain ⟨c, hc⟩ := Option.isSome_iff_exists.1 hsome
    exact ⟨hq, by rw [State.live_eq_some.2 ⟨hu, hc⟩]; rfl⟩
  case linked =>
    obtain ⟨c, hc⟩ := Option.isSome_iff_exists.1 hsome
    have hl : s.live = some c := State.live_eq_some.2 ⟨hu, hc⟩
    exact ⟨exec_lsSend_waits h hl, exec_lsRecv_waits h hl, exec_lsClose_waits h hl⟩
  case digest =>
    simp only [exec, execHsDigestRound, hp, ho, hq]
    exact awaitReply_waits _ h
  case length =>
    simp only [exec, execHsLengthRound, hp, ho, hq]
    exact awaitReply_waits _ h

end Sys2Proof.Machine
end

section
/-!
PROOFS. Reset (O1, O2, O48), and the drain that the environment never ends (O30).
-/
namespace Sys2Proof.Machine

/-! ### Reset (R290, R291) -/

/-- Settles O1: the value of each register, in the order of the definition; STATUS is read from five of them. -/
theorem resetHoldsSpecValues : Obligations.ResetHoldsSpecValues :=
  ⟨rfl, rfl, rfl, rfl, rfl, rfl, toInt_neg_one, toInt_neg_one, toInt_neg_one, rfl, rfl, rfl, rfl, rfl, rfl, rfl, rfl, rfl, rfl,
    rfl, rfl, rfl, rfl, rfl, rfl, rfl, rfl, rfl, rfl, rfl, rfl, rfl, rfl, rfl, rfl, rfl⟩

/-- The reset input leaves every register at its reset value: what it keeps is the model's own. -/
theorem State.hardReset_specReset (s : State) : s.hardReset.specReset := resetHoldsSpecValues

/-- Settles O2: the step is the reset input's. -/
theorem resetTurnAbandonsRun : Obligations.ResetTurnAbandonsRun :=
  fun _ _ hs => ⟨_, step_reset hs, State.hardReset_specReset _, rfl, rfl⟩

/-- Settles O48: the cursors are at -1, and no channel, no record and no run is there to speak of. -/
theorem invHoldsAtReset : Obligations.InvHoldsAtReset where
  image := State.reset_image_wf
  cursor_ge := toInt_neg_one.ge
  lastrep_ge := toInt_neg_one.ge
  lastrep_le := le_refl _
  wbase_ge := toInt_neg_one.ge
  wbase_le := le_refl _
  channel := rfl
  linked := iff_of_false nofun nofun
  discipline := rfl
  config := nofun
  control := rfl

/-! ### A message received -/

/-- A message changes FRESH and CURSOR at most. -/
theorem State.consume_frame (m : Message) (s : State) :
    s.consume m = { s with fresh := (s.consume m).fresh, cursor := (s.consume m).cursor } := by
  rcases s.consume_cases m with ⟨_, _, _, _, -, -, e⟩ | ⟨_, _, _, _, -, -, e⟩ | e <;> rw [e]

/-- The frame is recorded, and the drain goes on. -/
theorem State.accept_frame (c : Handle) (m : Message) (s : State) :
    s.accept c m = { s with
      fresh := (s.accept c m).fresh, cursor := (s.accept c m).cursor, op := .noOp, pstep := .rxDrain
      trace := .received c s.recvTimeout .frame :: s.trace } :=
  State.consume_frame m _

/-! ### RX.POLL in progress (41_link.md R157) -/

/-- RX.POLL is in progress on channel c: a receive is outstanding, or the next is about to be called. -/
structure State.Polling (c : Handle) (s : State) : Prop where
  phase : s.phase.exchanging = true
  pstep : s.pstep = .rxTimed ∨ s.pstep = .rxDrain
  op : s.op = .noOp ∨ s.op = .recvOp ∧ s.opstep = .tryPort
  link : s.link = .up
  chan : s.chan = some c

section
variable {s : State} {c : Handle} {r : Reply} {rest : List Turn} {f : RxFrame}

theorem State.Polling.of_receiving (h : s.receiving = true) (hc : s.chan = some c) : s.Polling c := by
  obtain ⟨hp, ho, hq, hs, -⟩ := State.receiving_iff.1 h
  exact ⟨hp, hs, .inr ⟨ho, hq⟩, (State.live_eq_some.1 (State.live_of_receiving h hc)).1, hc⟩

theorem State.Polling.receiving (h : s.Polling c) (ho : s.op = .recvOp) (hq : s.opstep = .tryPort) : s.receiving = true :=
  State.receiving_iff.2 ⟨h.phase, ho, hq, h.pstep, c, State.live_eq_some.2 ⟨h.link, h.chan⟩⟩

theorem State.Polling.running (h : s.Polling c) : s.phase.atRest = false := by
  rcases Phase.exchanging_iff.1 h.phase with hp | hp | hp <;> rw [hp] <;> rfl

/-- Between two receives the control state selects RX.POLL. -/
theorem State.Polling.selected (h : s.Polling c) (ho : s.op = .noOp) : s.selected = .ok .rxPoll := by
  rcases Phase.exchanging_iff.1 h.phase with hp | hp | hp
  · rw [State.selected_sendingDigest hp, if_pos ho]
    rcases h.pstep with hq | hq <;> rw [hq]
  · rw [State.selected_sendingLength hp, if_pos ho]
    rcases h.pstep with hq | hq <;> rw [hq]
  · rw [State.selected_transfer hp, if_pos ho]
    rcases h.pstep with hq | hq <;> rw [hq]

/-- Between two receives there is internal computation to do. -/
theorem State.Polling.computing (h : s.Polling c) (ho : s.op = .noOp) : s.computing = true := by
  rcases Phase.exchanging_iff.1 h.phase with hp | hp | hp <;> rcases h.pstep with hq | hq <;>
    simp [State.computing, State.atRequest, State.atEmit, Phase.atRest, hp, hq, ho]

/-- The next receive called. -/
theorem State.Polling.call (h : s.Polling c) : (s.call .recvOp).Polling c :=
  ⟨h.phase, h.pstep, .inr ⟨rfl, rfl⟩, h.link, h.chan⟩

/-- After a frame the drain goes on. -/
theorem State.Polling.accept (h : s.Polling c) (m : Message) : (s.accept c m).Polling c := by
  rw [State.accept_frame]
  exact ⟨h.phase, .inr rfl, .inl rfl, h.link, h.chan⟩

/-- An outstanding receive answered by a frame, whichever it is, accepts the frame's message. -/
theorem step_receives_frame (h : s.Polling c) (ho : s.op = .recvOp) (hq : s.opstep = .tryPort) (hs : s.script = .reply r :: rest)
    (hf : r.received = .frame f) :
    step s = .next (State.accept c (decodeMessage s.cfg.baseId f) { s with script := rest }) := by
  have hrecv := h.receiving ho hq
  have hsettled := State.computing_receiving hrecv
  obtain ⟨hok, herror⟩ := State.blockFetch_frame hs hrecv hf
  cases hd : decodeFrame s.cfg.baseId f with
  | ok i =>
    rw [step_reply_settled hsettled h.running hs (hok i hd), exec_of_decodeFrame hd]
    exact receiveFrame_answered hrecv h.chan hs _
  | error e =>
    rw [step_reply_settled hsettled h.running hs (herror e hd)]
    exact exec_lsRecv_frame hrecv (State.live_of_receiving hrecv h.chan) hs hf

/-- One step of RX.POLL on a frame: the receive, called first if it is not outstanding, accepts the frame's message. -/
theorem step_polls_frame (h : s.Polling c) (hs : s.script = .reply r :: rest) (hf : r.received = .frame f) :
    step s = .next (State.accept c (decodeMessage s.cfg.baseId f) { s with opstep := .tryPort, script := rest }) := by
  rcases h.op with ho | ⟨ho, hq⟩
  · calc step s
        = step (s.call .recvOp) := step_after_line (h.computing ho) (h.selected ho) (exec_rxPoll_call ho h.pstep) hs
      _ = _ := step_receives_frame h.call rfl rfl hs hf
  · rw [step_receives_frame h ho hq hs hf, ← hq]

/-! ### The drain (R303) -/

/-- RX.POLL in an environment that repeats one answer for ever (log 1). -/
structure State.Draining (c : Handle) (r : Reply) (s : State) : Prop extends s.Polling c where
  script : s.script = []
  loop : s.loop = [.reply r]

/-- A step of the drain receives one frame; PHASE and ABORT_REQ stay, and RX.POLL stays in progress. -/
theorem step_draining (h : s.Draining c r) (hf : r.received = .frame f) :
    ∃ t d, step s = .next t ∧ t.Draining c r ∧ t.phase = s.phase ∧ t.abortReq = s.abortReq ∧
      t.trace = .received c d .frame :: s.trace := by
  have hdrawn : s.drawTurn = { s with script := [.reply r] } := by
    rw [State.drawTurn_loop h.script h.loop (by simp), h.loop]
  have hpoll : s.drawTurn.Polling c := by
    rw [hdrawn]
    exact ⟨h.phase, h.pstep, h.op, h.link, h.chan⟩
  have hstep := (step_drawTurn s).symm.trans (step_polls_frame hpoll (by rw [hdrawn]) hf)
  rw [hdrawn] at hstep
  have hnext : State.Polling c { s with opstep := .tryPort, script := [] } :=
    ⟨h.phase, h.pstep, h.op.imp_right fun ⟨ho, _⟩ => ⟨ho, rfl⟩, h.link, h.chan⟩
  refine ⟨_, s.recvTimeout, hstep, ⟨hnext.accept _, ?script, ?loop⟩, ?phase, ?abortReq, ?trace⟩
  all_goals rw [State.accept_frame]
  case loop => exact h.loop
  case trace => rfl

/-- After n steps of the drain the record holds n received frames more, and the drain goes on. -/
theorem run_draining (hf : r.received = .frame f) (n : Nat) (h : s.Draining c r) :
    ∃ t l, run n s = .next t ∧ t.Draining c r ∧ t.phase = s.phase ∧ t.abortReq = s.abortReq ∧
      t.trace = l ++ s.trace ∧ l.length = n ∧ ∀ e ∈ l, ∃ d, e = .received c d .frame := by
  induction n generalizing s with
  | zero => exact ⟨s, [], rfl, h, rfl, rfl, rfl, rfl, List.forall_mem_nil _⟩
  | succ n ih =>
    obtain ⟨u, d, hstep, hu, hphase, habort, htrace⟩ := step_draining h hf
    obtain ⟨t, l, hrun, ht, hphase', habort', htrace', hlen, hl⟩ := ih hu
    refine ⟨t, l ++ [.received c d .frame], (run_succ hstep).trans hrun, ht, hphase'.trans hphase, habort'.trans habort,
      ?trace, ?length, fun e he => ?events⟩
    case trace => rw [htrace', htrace, List.append_assoc, List.singleton_append]
    case length => rw [List.length_append, hlen, List.length_singleton]
    case events =>
      rcases List.mem_append.1 he with he | he
      · exact hl e he
      · exact ⟨d, List.mem_singleton.1 he⟩

end

/-- Settles O30: each step of the drain receives a frame and is followed by another. -/
theorem drainNeverEnds : Obligations.DrainNeverEnds := by
  intro s c r f hrecv hc hs hloop hf n
  have hdrain : s.Draining c r := ⟨.of_receiving hrecv hc, hs, hloop⟩
  obtain ⟨t, l, hrun, ht, hphase, habort, htrace, hlen, hl⟩ := run_draining hf n hdrain
  refine ⟨t, hrun, hphase, ht.pstep, habort, ht.link, ht.chan, ht.script, ht.loop.trans hloop.symm, ?_, fun hn => ?_⟩
  · rw [htrace, List.length_append, hlen, Nat.add_comm]
  · obtain ⟨e, l, rfl⟩ := List.exists_cons_of_length_pos (hlen ▸ hn)
    obtain ⟨d, rfl⟩ := hl e List.mem_cons_self
    exact ⟨d, by rw [htrace]; rfl⟩

end Sys2Proof.Machine
end
